-- ==== Sys2Proof/Word.lean ====
section
/-! DEFINITION. The words and the small name types that every other file reads: track time, bytes, addresses, lanes,
directions, and the two table shapes (one cell per lane, one cell per car code). -/

namespace Sys2Proof

/-- Track time: a count of ticks of 32 bits that wraps (R1). -/
abbrev Time := BitVec 32

/-- A byte of a payload, a character or a store. -/
abbrev Byte := BitVec 8

/-- A car code as it is blinked and carried: 1 to 15, or 0 when unidentified (00_scope.md, Terms). -/
abbrev CarCode := BitVec 4

/-- A handset address, 1 to 65534 (R36); 0 in a BIND frame or a notice means none. -/
abbrev HandsetAddr := BitVec 16

/-- A node address, 1 to 62; 63 is the setup tool, 0 a node that has not been configured (00_scope.md, Conventions). -/
abbrev NodeAddr := BitVec 6

/-- The four lanes a part can have, numbered 1 to 4 from the left (00_scope.md, Conventions). -/
inductive Lane where
  | l1
  | l2
  | l3
  | l4
deriving DecidableEq, Repr

/-- The lane's number. -/
def Lane.num : Lane → Nat
  | .l1 => 1
  | .l2 => 2
  | .l3 => 3
  | .l4 => 4

/-- The lane of a number, where there is one. -/
def Lane.ofNum : Nat → Option Lane
  | 1 => some .l1
  | 2 => some .l2
  | 3 => some .l3
  | 4 => some .l4
  | _ => none

/-- The lanes in order of number. -/
def Lane.all : List Lane := [.l1, .l2, .l3, .l4]

/-- The two sides of a lane, and the two buttons of a handset. -/
inductive Dir where
  | left
  | right
deriving DecidableEq, Repr

/-- One cell per lane. -/
structure PerLane (α : Type) where
  l1 : α
  l2 : α
  l3 : α
  l4 : α
deriving DecidableEq, Repr

/-- The cell of a lane. -/
def PerLane.get {α : Type} (p : PerLane α) : Lane → α
  | .l1 => p.l1
  | .l2 => p.l2
  | .l3 => p.l3
  | .l4 => p.l4

/-- The same table with one lane's cell replaced. -/
def PerLane.set {α : Type} (p : PerLane α) (l : Lane) (x : α) : PerLane α :=
  match l with
  | .l1 => { p with l1 := x }
  | .l2 => { p with l2 := x }
  | .l3 => { p with l3 := x }
  | .l4 => { p with l4 := x }

/-- Every cell changed by one function. -/
def PerLane.map {α β : Type} (f : α → β) (p : PerLane α) : PerLane β :=
  ⟨f p.l1, f p.l2, f p.l3, f p.l4⟩

/-- The table filled by a function of the lane. -/
def PerLane.ofFn {α : Type} (f : Lane → α) : PerLane α := ⟨f .l1, f .l2, f .l3, f .l4⟩

/-- The same cell in every lane. -/
def PerLane.const {α : Type} (x : α) : PerLane α := ⟨x, x, x, x⟩

/-- A car that has a binding entry: car code 1 to 15, held as the entry's place 0 to 14 (R49). -/
abbrev Car := Fin 15

/-- The entry of a car code; code 0 has none (R49). -/
def Car.ofCode (c : CarCode) : Option Car :=
  if h : c.toNat = 0 then none else some ⟨c.toNat - 1, by have := c.isLt; omega⟩

/-- The code of an entry. -/
def Car.code (c : Car) : CarCode := BitVec.ofNat 4 (c.val + 1)

/-- The fifteen cars in order of code. -/
def Car.all : List Car := [0, 1, 2, 3, 4, 5, 6, 7, 8, 9, 10, 11, 12, 13, 14]

/-- Exactly one cell per car code 1 to 15 (R49). -/
structure CodeTable (α : Type) where
  cells : List α
  size_eq : cells.length = 15
deriving DecidableEq, Repr

/-- The cell of a car. -/
def CodeTable.get {α : Type} (t : CodeTable α) (c : Car) : α :=
  t.cells[c.val]'(by have := t.size_eq; have := c.isLt; omega)

/-- The same table with one car's cell replaced. -/
def CodeTable.set {α : Type} (t : CodeTable α) (c : Car) (x : α) : CodeTable α :=
  ⟨t.cells.set c.val x, by simp [t.size_eq]⟩

/-- Every cell changed by one function. -/
def CodeTable.map {α β : Type} (f : α → β) (t : CodeTable α) : CodeTable β :=
  ⟨t.cells.map f, by simp [t.size_eq]⟩

/-- The table filled by a function of the car. -/
def CodeTable.ofFn {α : Type} (f : Car → α) : CodeTable α := ⟨Car.all.map f, by simp [Car.all]⟩

/-- The same cell for every car. -/
def CodeTable.const {α : Type} (x : α) : CodeTable α := ⟨List.replicate 15 x, by simp⟩

end Sys2Proof
end

