-- ==== Sys2Proof/Syntax.lean ====
section
/-! DEFINITION. The commands of the block: one constructor per row of spec/opcode_table.json, in the table's order. The
operands (the table gives none; log 1, DESIGN CHOICE) say which lane, entry or record the step is about, or what the input lines
bring at that step. -/

namespace Sys2Proof

/-- The two neighbour records (R91). -/
inductive Neighbour where
  | upstream
  | downstream
deriving DecidableEq, Repr

/-- The steps of the part. In `bits` a wire bit is true when recessive (1) and false when dominant (0), R144; a frame's
bits run from its start bit to the bit at which it ends. `phase` is the place of a bit within its tick, 0 to 7. -/
inductive Instr where
  /-- R19: two successive samples of a gate's IR input (true is lit). -/
  | irEdge (lane : Lane) (first second : Bool)
  /-- R24. -/
  | passageClose (lane : Lane)
  /-- R26. -/
  | stallDeclaration (lane : Lane)
  /-- R28. -/
  | stallEnd (lane : Lane)
  /-- R31. -/
  | noticeComplete (lane : Lane)
  /-- R33. -/
  | blankingEnd (lane : Lane)
  /-- R36, R40, R176: what the handset line read, one level per bit time at 115200 bit/s (true is a mark), from the line's idle
  before a run to the bit time at which the run closes, which is now; `span` is the ticks from the tick of its first start
  bit to this one. -/
  | handsetFrame (levels : List Bool) (span : Nat)
  /-- R39. -/
  | handsetStaleRemoval (addr : HandsetAddr)
  /-- R42. -/
  | requestExpiry (addr : HandsetAddr)
  /-- R45. -/
  | gestureLapse (addr : HandsetAddr)
  /-- R58. -/
  | noticeRunRepeat (lane : Lane)
  /-- R66. -/
  | saveComplete
  /-- R81: the entry at that place of the list. -/
  | occupancyExpiry (index : Nat)
  /-- R84. -/
  | laneHoldEnd (lane : Lane)
  /-- R90: the record at that place of the list. -/
  | approachExpiry (index : Nat)
  /-- R92. -/
  | neighbourSilence (side : Neighbour)
  /-- R125. -/
  | grantLate (lane : Lane)
  /-- R130: the claim at that place of the table. -/
  | claimExpiry (index : Nat)
  /-- R134: what the current sense reads in the pulse's last tick; R161: the setup strap, read when the test is
  complete. -/
  | coilPulseEnd (currentPresent strapHeld : Bool)
  /-- R136. -/
  | bladeThrow (lane : Lane)
  /-- R137. -/
  | bladeRelease (lane : Lane)
  /-- R138. -/
  | coolingEnd (lane : Lane)
  /-- R140: the current sense in the tick before and in this tick (true is present). -/
  | openCoil (lane : Lane) (before now : Bool)
  /-- R147: the place of the start bit in its tick. -/
  | attemptStart (phase : BitVec 3)
  /-- R148: the position of the lost header bit. -/
  | arbitrationLoss (position : Nat)
  /-- R149: the position of the faulting bit. -/
  | bitFault (position : Nat)
  /-- R150. -/
  | attemptComplete
  /-- R155: the frame at that place of the queue. -/
  | frameDeadline (index : Nat)
  /-- R157. -/
  | beaconTimer
  /-- R151. -/
  | frameDiscarded (bits : List Bool)
  /-- R153. -/
  | passReceived (bits : List Bool) (phase : BitVec 3)
  /-- R61. -/
  | bindReceived (bits : List Bool) (phase : BitVec 3)
  /-- R62. -/
  | joinReceived (bits : List Bool) (phase : BitVec 3)
  /-- R64. -/
  | heatReceived (bits : List Bool) (phase : BitVec 3)
  /-- R91. -/
  | beaconReceived (bits : List Bool) (phase : BitVec 3)
  /-- R153. -/
  | cfgdReceived (bits : List Bool) (phase : BitVec 3)
  /-- R165. -/
  | cfgrReceived (bits : List Bool) (phase : BitVec 3)
  /-- R166. -/
  | cfgwReceived (bits : List Bool) (phase : BitVec 3)
  /-- R166. -/
  | configWriteComplete
  /-- R165. -/
  | cfgxReceived (bits : List Bool) (phase : BitVec 3)
  /-- R160: whether the reset input is held as the supply rises. -/
  | powerOn (resetHeld : Bool)
  /-- R161: the setup strap, read here when no coil is to be tested. -/
  | loadReadComplete (strapHeld : Bool)
  /-- R167. -/
  | syncEnd
  /-- R168: what the retention sense reads. -/
  | trackPowerAbsent (retentionHigh : Bool)
  /-- R169. -/
  | trackPowerReturn
  /-- R169. -/
  | debounceComplete
  /-- R169. -/
  | retentionLow
  /-- R171. -/
  | resetAssert
  /-- R171. -/
  | resetRelease
  /-- R172. -/
  | heatPress
  /-- R1. -/
  | tick
  /-- R18: two successive samples of a gate's IR input. -/
  | levelSettled (lane : Lane) (first second : Bool)
  /-- R146: the bits read since the line state last changed or was last told. -/
  | lineReady (bits : List Bool)
  /-- R134. -/
  | coilPulseStart
  /-- R172. -/
  | heatInputReleased
  /-- R160. -/
  | retentionEnds
deriving DecidableEq, Repr

end Sys2Proof
end

