-- ==== Sys2Proof/Decode.lean ====
section
/-! DEFINITION. The words that spell commands. No row of spec/opcode_table.json gives bits ("fields": [] in every row),
so no word spells a command (log 31, DESIGN CHOICE). The formats of what the lines carry are in Machine/Operands.lean. -/

namespace Sys2Proof

/-- The command a table word spells: none, because the table gives no row any bits. -/
def decodeTableWord (_nbits _w : Nat) : Option Instr := none

end Sys2Proof
end

