-- ==== Sys2Proof/Config.lean ====
section
/-! DEFINITION. What is fixed for the machine: the durations and capacities the spec states as numbers, and the free
values, which the spec leaves open (opaque constants with no body). -/

namespace Sys2Proof.Config

/-- R3: the age at which the stamp of a past event is held. -/
def ageCap : Nat := 1048576
/-- R24, R28: ticks without an edge that close a passage or end a stall. -/
def gapTicks : Nat := 24
/-- R24: the least dwell of a passage that is recorded. -/
def leastDwell : Nat := 8
/-- R26: the span from its first edge at which an open passage is a stall. -/
def stallTicks : Nat := 8192
/-- R8: the greatest travel time; R11, R12: the greatest age and offset. -/
def greatestTravel : Nat := 32767
/-- R6, R7: the range of a pace. -/
def leastPace : Nat := 4
def greatestPace : Nat := 4095
/-- R10: the greatest hold of a blade. -/
def greatestHold : Nat := 6250
/-- R109: the margin from a decision to its throw. -/
def throwMargin : Nat := 16
/-- R138: the rest after a stand-down. -/
def coolingTicks : Nat := 625
/-- R33: blanking goes on for this long after a notice's last mark. -/
def blankingTail : Nat := 4
/-- R58: the interval and the number of the notices of a run. -/
def noticeInterval : Nat := 781
def noticesOfRun : Nat := 40
/-- R36, R176: the bit times of a character; and at 115200 bit/s the bit times to the end of 2 ticks, which are 14.75 of them. -/
def charBits : Nat := 10
def quietBits : Nat := 15
/-- R39: an unbound handset unheard for this long is removed. -/
def staleTicks : Nat := 31250
/-- R45: a gesture is fresh for this long after its last frame. -/
def gestureTicks : Nat := 1563
/-- R5: the unit of the request hold and the blind hold. -/
def holdUnit : Nat := 3906
/-- R92: a neighbour unheard for this long is silent. -/
def silenceTicks : Nat := 15625
/-- R79: the end of a STALL entry after its stall's end. -/
def stallTail : Nat := 32767
/-- R116, R127: the deadline of a PASS notice after its t_ref. -/
def passDeadline : Nat := 3125
/-- R60, R63, R158: the deadline of BIND, HEAT and JOIN frames. -/
def bindDeadline : Nat := 7813
/-- R157, R158: the deadline of BEACON and CFGD frames, and the BEACON period. -/
def beaconTicks : Nat := 3906
/-- R167: the length of SYNC. -/
def syncTicks : Nat := 7813
/-- R66: the length of a binding save. -/
def saveTicks : Nat := 375
/-- R166: the length of a configuration write. -/
def writeTicks : Nat := 313
/-- R161: the length of the NV read of LOAD. -/
def readTicks : Nat := 469
/-- R134: the length of a presence pulse and of the rest before the next. -/
def pulseTicks : Nat := 8
/-- R169: the power-return debounce. -/
def debounceTicks : Nat := 2344
/-- R172: the heat-press filter. -/
def heatTicks : Nat := 156
/-- R140: ticks after the throw from which a second absent reading is judged (throw + 4, and one tick more). -/
def openCoilTicks : Nat := 5
/-- R146: recessive bits after which the line is idle. -/
def idleBits : Nat := 10
/-- Capacities: R37, R77, R85, R128, R154; R63: the feeding bound of the replay cursor. -/
def handsetCap : Nat := 16
def occupancyCap : Nat := 24
def approachCap : Nat := 16
def claimCap : Nat := 8
def queueCap : Nat := 8
def replayBound : Nat := 4

/-- The setup tool's address (00_scope.md, Conventions). -/
def setupTool : NodeAddr := 63#6

/-- FREE VALUE (log 8, DESIGN CHOICE). The 15 field bytes of a configuration block whose write was cut (R166: "whatever the bytes
hold"), for the draw of that number. -/
opaque cutFields : Nat → BitVec 120
/-- FREE VALUE (log 8, DESIGN CHOICE). The check byte of a configuration block whose write was cut (R166). -/
opaque cutCheck : Nat → BitVec 8
/-- FREE VALUE (log 8, DESIGN CHOICE). A record of a binding save that was cut (R67), for the draw of that number and the car. -/
opaque cutRecord : Nat → Car → BitVec 40

end Sys2Proof.Config
end

