-- ==== Sys2Proof/Machine/State.lean ====
section
/-! DEFINITION. The state of the part, block by block as 00_scope.md lists them, and the state after reset. Plain data. -/

namespace Sys2Proof.Machine

/-! ## Names -/

/-- The node states (R159). -/
inductive NodeState where
  | off
  | load
  | setup
  | sync
  | run
  | holdup
  | fault
deriving DecidableEq, Repr

/-- The outcomes of a decision, and the three a grant's end reports (R115, R174). -/
inductive Outcome where
  | notReady
  | stalled
  | straight
  | kept
  | noLane
  | laneHeld
  | blockedTarget
  | bladeBusy
  | tooClose
  | following
  | blind
  | blockedDownstream
  | shared
  | swept
  | taken
  | yielded
  | late
  | aborted
deriving DecidableEq, Repr

/-- A pace with its two clamp marks (R6). -/
structure Pace where
  ticks : Nat
  fast : Bool
  slow : Bool
deriving DecidableEq, Repr

/-- A window of track time, both ends included (R16). -/
structure Window where
  start : Time
  stop : Time
deriving DecidableEq, Repr

/-! ## Lane gates (02) -/

/-- The decoder: HUNT, or a place in a frame with the bits gathered so far, `space` saying whether a space is
expected next (R21). -/
inductive Decoder where
  | hunt
  | frame (space : Bool) (bits : List Bool)
deriving DecidableEq, Repr

/-- The code of an open passage (R23). -/
inductive PassageCode where
  | absent
  | read (c : CarCode)
  | conflicting
deriving DecidableEq, Repr

/-- An open passage (R23, R24). -/
structure Passage where
  first : Time
  last : Time
  code : PassageCode
  frames : Nat
deriving DecidableEq, Repr

/-- A stall's code and the frames seen of it (R27). -/
structure StallCode where
  code : CarCode
  frames : Nat
deriving DecidableEq, Repr

/-- The gate state with what is present in it (R24, R26, R27). -/
inductive GateState where
  | idle
  | open (p : Passage)
  | stall (p : Passage) (code : Option StallCode) (decoded : Option CarCode)
deriving DecidableEq, Repr

/-- A notice for the emitter: a car code and a handset address, 0 for a release (R31). -/
structure Notice where
  code : CarCode
  handset : HandsetAddr
deriving DecidableEq, Repr

/-- A notice being sent, and the tick in which its last mark ends (R31, R32). -/
structure Sending where
  notice : Notice
  ends : Time
deriving DecidableEq, Repr

/-- One lane gate. `dropped` is the model's own: in the tick in which a run's next notice began blanking, the decoder as it
stood before (R59; log 36, DEDUCED). -/
structure Gate where
  level : Option Bool
  previous : Option Bool
  decoder : Decoder
  state : GateState
  gap : Nat
  sending : Option Sending
  waiting : Option Notice
  blanking : Option Time
  dropped : Option Decoder
deriving DecidableEq, Repr

/-- A gate that is off, and a gate at the moment it comes on (R18, R30). Its gap timer starts at 0 (log 13, DESIGN CHOICE). -/
def Gate.off : Gate :=
  { level := none, previous := none, decoder := .hunt, state := .idle, gap := 0, sending := none, waiting := none,
    blanking := none, dropped := none }

/-- The kinds of a passage record (R25). -/
inductive PassageKind where
  | normal
  | stalled
deriving DecidableEq, Repr

/-- A passage record, handed on and not kept (R25). -/
structure PassageRecord where
  lane : Lane
  code : CarCode
  tFirst : Time
  tRef : Time
  dwell : Nat
  pace : Pace
  kind : PassageKind
  handover : Time
deriving DecidableEq, Repr

/-! ## Handset port (03) -/

/-- The gestures (R36). -/
inductive Gesture where
  | none
  | bind
  | bindKept
  | release
deriving DecidableEq, Repr

/-- A latched request (R41). -/
structure Request where
  dir : Dir
  count : BitVec 4
  latched : Time
deriving DecidableEq, Repr

/-- An entry of the handset table (R37). `fresh` says whether its gesture is fresh (R45; log 15, DESIGN CHOICE). -/
structure HandsetEntry where
  address : HandsetAddr
  lastHeard : Time
  pressCount : BitVec 4
  programCount : BitVec 2
  gesture : Gesture
  gestureTime : Time
  fresh : Bool
  resync : Bool
  request : Option Request
deriving DecidableEq, Repr

/-! ## Binding table (04, 05) -/

/-- The two fields of R69, of which an entry never holds both. -/
inductive Standing where
  | empty
  | order (dir : Dir) (remaining : Nat)
  | runOut (dir : Dir)
deriving DecidableEq, Repr

/-- A binding entry (R49): BOUND when a handset is present, FREE when none is. -/
structure Binding where
  handset : Option HandsetAddr
  stamp : BitVec 16
  origin : NodeAddr
  kept : Bool
  standing : Standing
deriving DecidableEq, Repr

/-- An entry never bound since a start with no valid save (R49, R68). -/
def Binding.fresh : Binding :=
  { handset := none, stamp := 0, origin := Config.setupTool, kept := false, standing := .empty }

/-- A notice run (R58). -/
structure NoticeRun where
  car : Car
  count : Nat
  nextAt : Time
deriving DecidableEq, Repr

/-- The binding table. -/
structure BindingBlock where
  entries : CodeTable Binding
  unsaved : Bool
  runs : PerLane (Option NoticeRun)
  cursor : Option Car
deriving DecidableEq, Repr

/-! ## Occupancy block (06) -/

/-- The kinds of an occupancy entry (R77). -/
inductive OccupancyKind where
  | passage
  | target
  | stall
deriving DecidableEq, Repr

/-- The end of an occupancy entry's window; a STALL entry's is open while its stall lasts (R79). -/
inductive WindowEnd where
  | at (t : Time)
  | open
deriving DecidableEq, Repr

/-- An occupancy entry (R77). -/
structure OccupancyEntry where
  code : CarCode
  lane : Lane
  kind : OccupancyKind
  tRef : Time
  pace : Pace
  start : Time
  stop : WindowEnd
  link : Option Lane
deriving DecidableEq, Repr

/-- An approach record (R85). -/
structure ApproachRecord where
  code : CarCode
  lane : Lane
  outcome : Outcome
  arrival : Time
  pace : Pace
  window : Window
  bladeTime : Time
deriving DecidableEq, Repr

/-- The shape of a neighbour's piece, from its BEACON (R91). -/
structure Geometry where
  ds : Nat
  dm : Nat
  lanes : Nat
deriving DecidableEq, Repr

/-- A neighbour record (R91). -/
structure NeighbourRecord where
  address : NodeAddr
  lastHeard : Option Time
  geometry : Option Geometry
deriving DecidableEq, Repr

/-- The occupancy block. -/
structure OccupancyBlock where
  list : List OccupancyEntry
  holds : PerLane (Option Time)
  lastClose : PerLane (Option Time)
  approach : List ApproachRecord
  up : NeighbourRecord
  down : NeighbourRecord
deriving DecidableEq, Repr

/-! ## Grant unit (08) -/

/-- The state of an occupied grant slot (R117). -/
inductive GrantState where
  | provisional
  | committed
deriving DecidableEq, Repr

/-- What a grant used: a latched press, or an order's direction (R117). -/
inductive UsedRequest where
  | press (count : BitVec 4)
  | order (dir : Dir)
deriving DecidableEq, Repr

/-- The grant a slot holds (R117). `frame` names its TAKEN frame in the queue by the model's number (log 22, DESIGN CHOICE). -/
structure Grant where
  state : GrantState
  code : CarCode
  handset : HandsetAddr
  used : UsedRequest
  target : Lane
  tRef : Time
  pace : Pace
  throwAt : Time
  releaseAt : Time
  window : Window
  frame : Option Nat
deriving DecidableEq, Repr

/-- A claim (R128). -/
structure Claim where
  originator : NodeAddr
  code : CarCode
  lane : Lane
  window : Window
deriving DecidableEq, Repr

/-- The grant unit. -/
structure GrantUnit where
  slots : PerLane (Option Grant)
  claims : List Claim
deriving DecidableEq, Repr

/-! ## Blade drivers (09) -/

/-- The blade states (R133). -/
inductive BladeState where
  | absent
  | rest
  | armed
  | thrown
  | cooling
  | failed
deriving DecidableEq, Repr

/-- One blade driver (R133), with its coil drive output and the tick in which the coil went on for a throw (R140). -/
structure Blade where
  state : BladeState
  throwAt : Option Time
  releaseAt : Option Time
  coolingEnd : Option Time
  coil : Bool
  drivenSince : Option Time
deriving DecidableEq, Repr

/-- A blade that serves no lane, with its coil off (R133). -/
def Blade.absent : Blade :=
  { state := .absent, throwAt := none, releaseAt := none, coolingEnd := none, coil := false, drivenSince := none }

/-! ## Section line controller (10) -/

/-- The frame kinds in order of their numbers (R148, R173). -/
inductive FrameKind where
  | pass
  | bind
  | heat
  | join
  | beacon
  | cfgr
  | cfgd
  | cfgw
  | cfgx
deriving DecidableEq, Repr

/-- The block image: 15 field bytes as one number, bit 119 the top bit of byte 0, and the check byte (R164, R177). -/
structure Block where
  fields : BitVec 120
  check : BitVec 8
deriving DecidableEq, Repr

/-- The order field of a PASS notice: its direction and remaining count (R73, R174). -/
structure OrderField where
  dir : Dir
  remaining : Nat
deriving DecidableEq, Repr

/-- The fields of a PASS notice as they are handed in; the age is formed at each attempt from `tRef` (R11, R116). -/
structure PassBody where
  code : CarCode
  laneIn : Lane
  laneOut : Lane
  outcome : Outcome
  pressed : Option (BitVec 4)
  order : Option OrderField
  pace : Pace
  tRef : Time
  startOffset : Nat
  endOffset : Nat
deriving DecidableEq, Repr

/-- The fields of a BIND frame (R60, R175). -/
structure BindBody where
  code : CarCode
  handset : HandsetAddr
  stamp : BitVec 16
  origin : NodeAddr
  kept : Bool
deriving DecidableEq, Repr

/-- What a frame of the transmit queue carries; a node sends these six kinds (10, Frame kinds). -/
inductive FrameBody where
  | pass (p : PassBody)
  | bind (b : BindBody)
  | heat
  | join
  | beacon (ds dm lanes : Nat)
  | cfgd (b : Block)
deriving DecidableEq, Repr

/-- The block that handed a frame in (R154); the grant unit's TAKEN frame names its slot's lane. -/
inductive Owner where
  | planner
  | grantUnit (lane : Lane)
  | bindingTable
  | controller
  | supervisor
deriving DecidableEq, Repr

/-- A frame of the transmit queue (R154). `id` is the model's own number of it (log 22, DESIGN CHOICE). -/
structure TxFrame where
  id : Nat
  level : BitVec 2
  originator : NodeAddr
  body : FrameBody
  deadline : Time
  queued : Time
  owner : Owner
deriving DecidableEq, Repr

/-- The line state (R146). -/
inductive LineState where
  | waitIdle (count : Nat)
  | ready
  | frame
deriving DecidableEq, Repr

/-- The node's own attempt: the frame, the wire bits it drives, the tick and the place in the tick of its start bit,
and its payload-start time (R147). -/
structure Attempt where
  frame : TxFrame
  bits : List Bool
  start : Time
  phase : BitVec 3
  payloadStart : Time
deriving DecidableEq, Repr

/-- The frame in reception after a loss or a bit fault: the wire bits read so far and the payload-start time. -/
structure Reception where
  read : List Bool
  payloadStart : Time
deriving DecidableEq, Repr

/-- The send status (R147, R148, R149). Of the spec's "none", `idle` is the one with no frame in reception, and `hearing` the
one with another station's frame in reception, its wire bits read so far from the start bit (R146). -/
inductive SendStatus where
  | idle
  | hearing (read : List Bool)
  | sending (a : Attempt)
  | lost (r : Reception)
  | faulted (r : Reception)
deriving DecidableEq, Repr

/-- The section line controller. -/
structure LineController where
  queue : List TxFrame
  state : LineState
  send : SendStatus
  beacon : Option Time
  nextId : Nat
deriving DecidableEq, Repr

/-- The controller with nothing queued, nothing under way and the BEACON timer stopped (R143). -/
def LineController.silent (nextId : Nat) : LineController :=
  { queue := [], state := .waitIdle 0, send := .idle, beacon := none, nextId := nextId }

/-! ## Node supervisor (11) -/

/-- The working values of the configuration mirror (R164, R5). -/
structure Working where
  address : NodeAddr
  upstream : NodeAddr
  downstream : NodeAddr
  lanes : Nat
  sides : PerLane (Option Dir)
  w : Nat
  ds : Nat
  dm : Nat
  lc : Nat
  gu : Nat
  gd : Nat
  guard : Nat
  lead : Nat
  requestHold : Nat
  blindHold : Nat
deriving DecidableEq, Repr

/-- The configuration mirror (R164). -/
structure Mirror where
  image : Block
  working : Working
deriving DecidableEq, Repr

/-- The place in LOAD's work (R161, R134): idle outside LOAD; waiting for the reset input's release; reading since;
a presence pulse of a lane since; the rest since a pulse's end, before the pulse of the next lane. -/
inductive LoadWork where
  | idle
  | heldInReset
  | reading (since : Time)
  | pulse (lane : Lane) (since : Time)
  | rest (next : Lane) (since : Time)
deriving DecidableEq, Repr

/-- A configuration write in flight (R166). -/
structure ConfigWrite where
  since : Time
  block : Block
deriving DecidableEq, Repr

/-- The node supervisor's own state. -/
structure Supervisor where
  mirror : Mirror
  setupAddress : NodeAddr
  nvBusy : Bool
  cameOn : Option Time
  debounce : Option Time
  heatReleased : Option Time
  load : LoadWork
  save : Option Time
  write : Option ConfigWrite
deriving DecidableEq, Repr

/-- The input pins that are not held elsewhere, as last read (11, Pins). -/
structure Pins where
  trackPower : Bool
  retentionHigh : Bool
  strapHeld : Bool
  resetHeld : Bool
  coilCurrent : PerLane Bool
deriving DecidableEq, Repr

/-- The nonvolatile store (R177). -/
structure Nv where
  block : Block
  writeMark : Byte
  saveMark : Byte
  records : CodeTable (BitVec 40)
deriving DecidableEq, Repr

/-! ## The whole -/

/-- The state of the part. `draws` counts the free values drawn (log 8, DESIGN CHOICE); `pending` is the queue of waiting commands,
first in, first out (log 3, DESIGN CHOICE). -/
structure State where
  now : Time
  node : NodeState
  pins : Pins
  sup : Supervisor
  nv : Nv
  gates : PerLane Gate
  handsets : List HandsetEntry
  bind : BindingBlock
  occ : OccupancyBlock
  grants : GrantUnit
  blades : PerLane Blade
  line : LineController
  draws : Nat
  pending : List Instr
deriving DecidableEq, Repr

/-- Why a step could stop with a fault. The spec gives the part no stop of its own (its FAULT is a node state, R170),
so there is no reason. -/
inductive Fault where
deriving DecidableEq, Repr

/-- Why a step could be refused. -/
inductive Refusal where
  /-- Raised by an arm of `exec` whose command has no meaning yet; safe, because nothing is claimed of it. -/
  | notModelled (mnemonic : String)
deriving DecidableEq, Repr

/-- The answer of a command. -/
abbrev Result := Host.Outcome State Fault Refusal

/-! ## Delivery, OFF and reset -/

/-- The fields of the default block (R162). -/
def Working.default : Working :=
  { address := 0, upstream := 0, downstream := 0, lanes := 2, sides := PerLane.const none, w := 24, ds := 180,
    dm := 220, lc := 70, gu := 0, gd := 0, guard := 20, lead := 80, requestHold := 16, blindHold := 4 }

/-- The default block as it is laid out (R162, R177): addresses 0, N 2 at bits 101-99, sides none, W 24 at 90-85, Ds 180
at 84-75, Dm 220 at 74-65, Lc 70 at 64-57, Gu and Gd 0, g 20 at 30-23, coil lead 80 at 22-15, request hold 16 at
14-9, blind hold 4 at 8-4; and its check byte (R163 test 2). -/
def Block.default : Block :=
  let f : BitVec 120 :=
    0#6 ++ 0#6 ++ 0#6 ++ 2#3 ++ 0#8 ++ 24#6 ++ 180#10 ++ 220#10 ++ 70#8 ++ 0#13 ++ 0#13 ++ 20#8 ++ 80#8 ++ 16#6 ++ 4#5
      ++ 0#4
  { fields := f, check := 0x3e#8 }

/-- The nonvolatile store on delivery: the default block with the write mark CLEAR (R162), and no valid save (R65). -/
def Nv.delivered : Nv :=
  { block := Block.default, writeMark := 0, saveMark := 0, records := CodeTable.const 0 }

/-- The binding table with nothing in it: what a LOAD with no valid save leaves (R68). -/
def BindingBlock.empty : BindingBlock :=
  { entries := CodeTable.const Binding.fresh, unsaved := false, runs := PerLane.const none, cursor := none }

/-- The occupancy block with nothing in it and no neighbour heard (R93). -/
def OccupancyBlock.empty (up down : NodeAddr) : OccupancyBlock :=
  { list := [], holds := PerLane.const none, lastClose := PerLane.const none, approach := [],
    up := { address := up, lastHeard := none, geometry := none },
    down := { address := down, lastHeard := none, geometry := none } }

/-- The grant unit with every slot free and no claim (R132). -/
def GrantUnit.empty : GrantUnit := { slots := PerLane.const none, claims := [] }

/-- The supervisor with nothing under way, and the default block's values in the mirror (log 5, DESIGN CHOICE, log 29, DESIGN CHOICE). -/
def Supervisor.blank : Supervisor :=
  { mirror := { image := Block.default, working := Working.default }, setupAddress := 0, nvBusy := false,
    cameOn := none, debounce := none, heatReleased := none, load := .idle, save := none, write := none }

/-- OFF: everything but the nonvolatile store is lost (R160); the lost fields stand at the values of log 29, DESIGN CHOICE. The two
counters that are the model's own and the queue of commands go on. -/
def State.offWith (nv : Nv) (draws nextId : Nat) (pending : List Instr) : State :=
  { now := 0, node := .off,
    pins := { trackPower := false, retentionHigh := true, strapHeld := false, resetHeld := false,
              coilCurrent := PerLane.const false },
    sup := Supervisor.blank, nv := nv, gates := PerLane.const Gate.off, handsets := [],
    bind := BindingBlock.empty, occ := OccupancyBlock.empty 0 0, grants := GrantUnit.empty,
    blades := PerLane.const Blade.absent, line := LineController.silent nextId, draws := draws, pending := pending }

/-- A part as delivered, before track power. -/
def State.delivered : State := State.offWith Nv.delivered 0 0 []

/-- The machine right after reset: a part as delivered whose power-on has just been taken, with the reset input
released (R160, R161; log 4, DESIGN CHOICE). It is in LOAD at track time 0, and the NV read is under way. -/
def State.reset : State :=
  let s := State.delivered
  { s with
    node := .load,
    pins := { s.pins with trackPower := true },
    sup := { s.sup with nvBusy := true, load := .reading 0 } }

end Sys2Proof.Machine
end

