-- ==== Sys2Proof/Machine/Ops.lean ====
section
/-! DEFINITION. The shared operations: the arithmetic of time, distance and pace (01), and the updates of one gate,
blade, slot or handset entry that every family uses. -/

namespace Sys2Proof.Machine

/-! ## Time (R1, R2, R3) -/

/-- R1: a duration after a time, modulo 2^32. -/
def Time.plus (t : Time) (n : Nat) : Time := t + BitVec.ofNat 32 n

/-- R1: a duration before a time, modulo 2^32. -/
def Time.minus (t : Time) (n : Nat) : Time := t - BitVec.ofNat 32 n

/-- R2: the difference b − a, a signed number of 32 bits. -/
def Time.diff (a b : Time) : Int := (b - a).toInt

/-- R2: a is at or before b. -/
def Time.atOrBefore (a b : Time) : Bool := decide (0 ≤ Time.diff a b)

/-- R2: a is before b. -/
def Time.before (a b : Time) : Bool := decide (0 < Time.diff a b)

/-- R2: a time has arrived at the present `now`. -/
def arrived (now t : Time) : Bool := Time.atOrBefore t now

/-- R2: the span from a to b exceeds k. -/
def Time.spanExceeds (a b : Time) (k : Nat) : Bool := decide ((k : Int) < Time.diff a b)

/-- R3: the stamp of a past event, held with its age capped. -/
def capStamp (now t : Time) : Time :=
  if (Config.ageCap : Int) ≤ Time.diff t now then Time.minus now Config.ageCap else t

/-! ## Windows (R16) -/

/-- R2: a time lies in [a, b]. -/
def Window.contains (w : Window) (t : Time) : Bool := Time.atOrBefore w.start t && Time.atOrBefore t w.stop

/-- R16: two windows conflict when they share a tick. -/
def Window.conflicts (v w : Window) : Bool := Time.atOrBefore v.start w.stop && Time.atOrBefore w.start v.stop

/-- R16: a window against one whose end may be open; an open end counts as after every time. -/
def Window.meets (v : Window) (start : Time) (stop : WindowEnd) : Bool :=
  match stop with
  | .at e => Window.conflicts v ⟨start, e⟩
  | .open => Time.atOrBefore start v.stop

/-- R16: a window is in order. -/
def Window.ordered (w : Window) : Bool := Time.atOrBefore w.start w.stop

/-! ## Pace and travel time (R6, R7, R8) -/

/-- R6: a pace held in 4..4095 with its clamp marks. -/
def Pace.clamped (p : Nat) : Pace :=
  if p < Config.leastPace then ⟨Config.leastPace, true, false⟩
  else if Config.greatestPace < p then ⟨Config.greatestPace, false, true⟩
  else ⟨p, false, false⟩

/-- R6: the pace of a NORMAL passage of dwell d over a window of W mm. -/
def Pace.ofDwell (w d : Nat) : Pace := Pace.clamped ((16 * d + w / 2) / w)

/-- R6: the pace of a STALLED passage. -/
def Pace.stalled : Pace := ⟨Config.greatestPace, false, false⟩

/-- R7: a received pace, clamped; its marks are kept as carried. -/
def Pace.received (p : Pace) : Pace := { p with ticks := max Config.leastPace (min Config.greatestPace p.ticks) }

/-- R8: the travel time T(X) at a pace. -/
def travel (x pace : Nat) : Nat := min Config.greatestTravel ((x * pace + 8) / 16)

/-! ## The formulas of 01 (R9 to R15) -/

/-- R9: the zone window of a passage over the node's own merge zone. -/
def zoneWindow (g : Working) (tRef : Time) (pace : Nat) : Window :=
  { start := Time.minus (Time.plus tRef (travel g.ds pace)) g.guard,
    stop := Time.plus (Time.plus tRef (travel (g.ds + g.dm + g.lc) pace)) g.guard }

/-- R10: the time at which a car's LED reaches the blade tip. -/
def bladeTime (g : Working) (tRef : Time) (pace : Nat) : Time := Time.plus tRef (travel g.ds pace)

/-- R10: the throw and release of a grant, with the hold clamp. -/
def holdWindow (g : Working) (tRef : Time) (pace : Nat) : Window :=
  let throwAt := Time.minus (bladeTime g tRef pace) g.lead
  let releaseAt := Time.plus (Time.plus tRef (travel (g.ds + g.lc) pace)) g.guard
  { start := throwAt,
    stop := if Time.spanExceeds throwAt releaseAt Config.greatestHold then Time.plus throwAt Config.greatestHold
            else releaseAt }

/-- R11: a value of a notice held in 0..32767. -/
def clampField (n : Int) : Nat := min Config.greatestTravel n.toNat

/-- R11: the start offset of a notice. -/
def startOffset (g : Working) (pace : Nat) : Nat := clampField ((travel g.ds pace : Int) - g.guard)

/-- R11: the end offset of a notice. -/
def endOffset (g : Working) (pace : Nat) : Nat := clampField ((travel (g.ds + g.dm + g.lc) pace : Int) + g.guard)

/-- R11: the age of a notice at an attempt's payload start. -/
def noticeAge (payloadStart tRef : Time) : Nat := clampField (Time.diff tRef payloadStart)

/-- R12: the sender's reference time in the node's own count. -/
def senderTime (payloadStart : Time) (age : Nat) : Time := Time.minus payloadStart (min Config.greatestTravel age)

/-- R13: the predicted gate arrival of a car reported upstream. -/
def upArrival (g : Working) (tUp : Time) (pace : Nat) : Time := Time.plus tUp (travel g.gu pace)

/-- R13: its zone window over the node's own merge zone. -/
def upWindow (g : Working) (tUp : Time) (pace : Nat) : Window :=
  { start := Time.minus (Time.plus tUp (travel (g.gu + g.ds) pace)) g.guard,
    stop := Time.plus (Time.plus tUp (travel (g.gu + g.ds + g.dm + g.lc) pace)) g.guard }

/-- R13: its blade time. -/
def upBladeTime (g : Working) (tUp : Time) (pace : Nat) : Time := Time.plus tUp (travel (g.gu + g.ds) pace)

/-- R14: the downstream check window of a candidate, from the downstream piece's geometry. -/
def downstreamWindow (g : Working) (n : Geometry) (tRef : Time) (pace : Nat) : Window :=
  { start := Time.minus (Time.plus tRef (travel (g.gd + n.ds) pace)) g.guard,
    stop := Time.plus (Time.plus tRef (travel (g.gd + n.ds + n.dm + g.lc) pace)) g.guard }

/-- R15: the claim window of a notice with offsets s and e. -/
def claimWindow (tDn : Time) (s e : Nat) : Window :=
  { start := Time.plus tDn s, stop := Time.plus tDn (max s e) }

/-! ## Lanes and sides -/

/-- The lane beside a lane on a side, whatever N is. -/
def Lane.beside (l : Lane) : Dir → Option Lane
  | .left => Lane.ofNum (l.num - 1)
  | .right => Lane.ofNum (l.num + 1)

/-- The lane beside a lane within 1 to N (R104). -/
def Lane.besideWithin (n : Nat) (l : Lane) (d : Dir) : Option Lane :=
  match Lane.beside l d with
  | some t => if t.num ≤ n then some t else none
  | none => none

/-! ## Lists -/

/-- Enter an element before the first one that must come after it; elements it ties with stay ahead of it. -/
def enterInOrder {α : Type} (comesAfter : α → Bool) (x : α) : List α → List α
  | [] => [x]
  | y :: ys => if comesAfter y then x :: y :: ys else y :: enterInOrder comesAfter x ys

/-- The place of the first element that no other comes strictly before, under `isBefore`. -/
def earliestFrom {α : Type} (isBefore : α → α → Bool) : (best : α) → (place next : Nat) → List α → Nat
  | _, place, _, [] => place
  | best, place, next, y :: ys =>
    if isBefore y best then earliestFrom isBefore y next (next + 1) ys
    else earliestFrom isBefore best place (next + 1) ys

/-- The place of the earliest element of a list, the first entered among equals; 0 for the empty list. -/
def earliest {α : Type} (isBefore : α → α → Bool) : List α → Nat
  | [] => 0
  | y :: ys => earliestFrom isBefore y 0 1 ys

/-! ## Updates of one part of the state -/

/-- One gate replaced. -/
def State.setGate (s : State) (l : Lane) (g : Gate) : State := { s with gates := s.gates.set l g }

/-- One blade replaced. -/
def State.setBlade (s : State) (l : Lane) (b : Blade) : State := { s with blades := s.blades.set l b }

/-- One grant slot replaced. -/
def State.setSlot (s : State) (l : Lane) (g : Option Grant) : State :=
  { s with grants := { s.grants with slots := s.grants.slots.set l g } }

/-- The claim table replaced. -/
def State.setClaims (s : State) (cs : List Claim) : State := { s with grants := { s.grants with claims := cs } }

/-- One binding entry replaced. -/
def State.setBinding (s : State) (c : Car) (b : Binding) : State :=
  { s with bind := { s.bind with entries := s.bind.entries.set c b } }

/-- One notice run replaced. -/
def State.setRun (s : State) (l : Lane) (r : Option NoticeRun) : State :=
  { s with bind := { s.bind with runs := s.bind.runs.set l r } }

/-- The occupancy list replaced. -/
def State.setOccupancy (s : State) (es : List OccupancyEntry) : State := { s with occ := { s.occ with list := es } }

/-- The approach list replaced. -/
def State.setApproach (s : State) (rs : List ApproachRecord) : State := { s with occ := { s.occ with approach := rs } }

/-- One lane's hold-until replaced. -/
def State.setHold (s : State) (l : Lane) (t : Option Time) : State :=
  { s with occ := { s.occ with holds := s.occ.holds.set l t } }

/-- One lane's last close replaced. -/
def State.setLastClose (s : State) (l : Lane) (t : Option Time) : State :=
  { s with occ := { s.occ with lastClose := s.occ.lastClose.set l t } }

/-- The transmit queue replaced. -/
def State.setQueue (s : State) (q : List TxFrame) : State := { s with line := { s.line with queue := q } }

/-- The handset entry of an address changed; the others stay. -/
def State.updateHandset (s : State) (a : HandsetAddr) (f : HandsetEntry → HandsetEntry) : State :=
  { s with handsets := s.handsets.map (fun e => if e.address = a then f e else e) }

/-- The handset entry of an address removed. -/
def State.dropHandset (s : State) (a : HandsetAddr) : State :=
  { s with handsets := s.handsets.filter (fun e => decide (e.address ≠ a)) }

/-- The working values of the mirror (R164). -/
abbrev State.working (s : State) : Working := s.sup.mirror.working

end Sys2Proof.Machine
end

