-- ==== Sys2Proof/Machine/Operands.lean ====
section
/-! DEFINITION. What a command's operand spells: the frames of the section line (R144, R145, R146, R151, R173 to R175), the
frames of the handset line (R36, R176), the marks of the car code frame and the bind notice (R20, R22, R32), and the
layouts of the nonvolatile store (R163, R177). -/

namespace Sys2Proof.Machine

/-! ## Numbers as bits, most significant first -/

/-- The number a list of bits spells. -/
def natOfBits (bits : List Bool) : Nat := bits.foldl (fun n b => 2 * n + b.toNat) 0

/-- The lowest `w` bits of a number. -/
def bitsOfNat : (w n : Nat) → List Bool
  | 0, _ => []
  | w + 1, n => n.testBit w :: bitsOfNat w n

/-- The bits of a word. -/
def bitsOf {w : Nat} (x : BitVec w) : List Bool := bitsOfNat w x.toNat

/-! ## The wire (R144, R145, R146) -/

/-- R145: one step of the CRC register. -/
def crcStep (r : Byte) (b : Bool) : Byte :=
  let shifted := r <<< 1
  if r.msb != b then shifted ^^^ 0x35#8 else shifted

/-- R145: the CRC over the covered bits. -/
def crc8 (bits : List Bool) : Byte := bits.foldl crcStep 0xff#8

/-- R144: the data bits with a recessive spacer after every eighth, none after the last; `n` data bits have gone since
the last spacer. -/
def withSpacers : (n : Nat) → List Bool → List Bool
  | _, [] => []
  | n, b :: rest => if n = 8 then true :: b :: withSpacers 1 rest else b :: withSpacers (n + 1) rest

/-- R146: the data bits of wire bits, or none where a spacer reads dominant. -/
def withoutSpacers : (n : Nat) → List Bool → Option (List Bool)
  | _, [] => some []
  | n, b :: rest =>
    if n = 8 then (if b then withoutSpacers 0 rest else none)
    else (withoutSpacers (n + 1) rest).map (b :: ·)

/-- R173: the number of a frame kind. -/
def FrameKind.number : FrameKind → BitVec 4
  | .pass => 0
  | .bind => 1
  | .heat => 2
  | .join => 3
  | .beacon => 4
  | .cfgr => 5
  | .cfgd => 6
  | .cfgw => 7
  | .cfgx => 8

/-- R173: the frame kind of a number, 9 to 15 being none. -/
def FrameKind.ofNumber (n : Nat) : Option FrameKind :=
  match n with
  | 0 => some .pass
  | 1 => some .bind
  | 2 => some .heat
  | 3 => some .join
  | 4 => some .beacon
  | 5 => some .cfgr
  | 6 => some .cfgd
  | 7 => some .cfgw
  | 8 => some .cfgx
  | _ => none

/-- R151: the payload length of a kind in bytes. -/
def FrameKind.length : FrameKind → Nat
  | .pass => 11
  | .bind => 6
  | .heat => 0
  | .join => 0
  | .beacon => 3
  | .cfgr => 1
  | .cfgd => 16
  | .cfgw => 17
  | .cfgx => 1

/-- R151: the levels allowed for a kind. -/
def FrameKind.allows (k : FrameKind) (level : Nat) : Bool :=
  match k with
  | .pass => level == 0
  | .bind => level == 1 || level == 2
  | .heat => level == 1
  | .join => level == 2
  | .beacon | .cfgr | .cfgd | .cfgw | .cfgx => level == 3

/-- R144, R145: the data bits of a frame: header, length, payload, CRC. -/
def frameData (level : BitVec 2) (kind : FrameKind) (originator : NodeAddr) (payload : List Bool) : List Bool :=
  let covered := bitsOf level ++ bitsOf kind.number ++ bitsOf originator ++ bitsOfNat 5 (payload.length / 8) ++ payload
  covered ++ bitsOf (crc8 covered)

/-- R144: the wire bits of a frame from its start bit. -/
def frameWire (level : BitVec 2) (kind : FrameKind) (originator : NodeAddr) (payload : List Bool) : List Bool :=
  false :: withSpacers 0 (frameData level kind originator payload)

/-- R146: how the bits read from a start bit on end a frame: whole, broken at the last bit, or not at all. -/
inductive FrameEnd where
  | complete (data : List Bool)
  | broken
  | notAnEnd
deriving DecidableEq, Repr

/-- R144: the payload length in bytes that the data bits carry in bits 13 to 17. -/
def lengthField (data : List Bool) : Nat := natOfBits ((data.drop 12).take 5)

/-- R146: a frame with those data bits has not ended: its length is not read yet, or is in range and not reached. -/
def goesOn (data : List Bool) : Bool :=
  decide (data.length < 17) || (decide (lengthField data ≤ 24) && decide (data.length < 25 + 8 * lengthField data))

/-- R146: where the bits after a start bit end the frame. -/
def frameEnd (afterStart : List Bool) : FrameEnd :=
  match withoutSpacers 0 afterStart with
  | none =>
    match withoutSpacers 0 afterStart.dropLast with
    | some data => if goesOn data then .broken else .notAnEnd
    | none => .notAnEnd
  | some data =>
    if data.length < 17 then .notAnEnd
    else if 24 < lengthField data then (if data.length = 17 then .broken else .notAnEnd)
    else if data.length = 25 + 8 * lengthField data then .complete data
    else .notAnEnd

/-- A good frame as it is delivered (R151). -/
structure GoodFrame where
  level : Nat
  kind : FrameKind
  originator : NodeAddr
  payload : List Bool
deriving DecidableEq, Repr

/-- R151: the four tests on a complete frame. -/
def judgeFrame (data : List Bool) : Option GoodFrame :=
  let covered := data.take (data.length - 8)
  let level := natOfBits (data.take 2)
  match FrameKind.ofNumber (natOfBits ((data.drop 2).take 4)) with
  | none => none
  | some k =>
    if natOfBits (data.drop (data.length - 8)) = (crc8 covered).toNat ∧ lengthField data = k.length ∧ k.allows level = true
    then some { level := level, kind := k, originator := BitVec.ofNat 6 (natOfBits ((data.drop 6).take 6)),
                payload := covered.drop 17 }
    else none

/-- R146, R151: the good frame that wire bits spell from their start bit, if they end one. -/
def goodFrame (wire : List Bool) : Option GoodFrame :=
  match frameEnd wire.tail with
  | .complete data => judgeFrame data
  | .broken | .notAnEnd => none

/-- R146, R151: the wire bits end a frame that is broken or not good. -/
def endsBad (wire : List Bool) : Bool :=
  match frameEnd wire.tail with
  | .complete data => (judgeFrame data).isNone
  | .broken => true
  | .notAnEnd => false

/-- R4, R144: the payload-start time of a frame whose last bit falls at place `phase` of tick `now`: position 20, which
lies 8 + 9L bit times before the last bit. -/
def payloadStartOf (now : Time) (phase : BitVec 3) (kind : FrameKind) : Time :=
  let back := 8 + 9 * kind.length
  Time.minus now ((back + 7 - phase.toNat) / 8)

/-- R147: the tick of a position of an attempt whose start bit falls at place `phase` of tick `start`. -/
def tickOfPosition (start : Time) (phase : BitVec 3) (position : Nat) : Time :=
  Time.plus start ((phase.toNat + position) / 8)

/-- R148, R173: the positions of the twelve header bits; position 9 is a spacer. -/
def isHeaderPosition (p : Nat) : Bool := decide (1 ≤ p) && decide (p ≤ 13) && decide (p ≠ 9)

/-! ## The PASS payload (R174) -/

/-- R174: the code of an outcome. -/
def Outcome.code : Outcome → BitVec 5
  | .notReady => 0
  | .stalled => 1
  | .straight => 2
  | .kept => 3
  | .noLane => 4
  | .laneHeld => 5
  | .blockedTarget => 6
  | .bladeBusy => 7
  | .tooClose => 8
  | .following => 9
  | .blind => 10
  | .blockedDownstream => 11
  | .shared => 12
  | .swept => 13
  | .taken => 14
  | .yielded => 15
  | .late => 16
  | .aborted => 17

/-- R174: the outcome of a code; 18 to 31 are none. -/
def Outcome.ofCode (n : Nat) : Option Outcome :=
  match n with
  | 0 => some .notReady
  | 1 => some .stalled
  | 2 => some .straight
  | 3 => some .kept
  | 4 => some .noLane
  | 5 => some .laneHeld
  | 6 => some .blockedTarget
  | 7 => some .bladeBusy
  | 8 => some .tooClose
  | 9 => some .following
  | 10 => some .blind
  | 11 => some .blockedDownstream
  | 12 => some .shared
  | 13 => some .swept
  | 14 => some .taken
  | 15 => some .yielded
  | 16 => some .late
  | 17 => some .aborted
  | _ => none

/-- R174: a lane less 1. -/
def Lane.field : Lane → BitVec 2
  | .l1 => 0
  | .l2 => 1
  | .l3 => 2
  | .l4 => 3

/-- R174: the lane a two-bit field decodes to. -/
def Lane.ofField (f : BitVec 2) : Lane :=
  if f = 0 then .l1 else if f = 1 then .l2 else if f = 2 then .l3 else .l4

/-- R174: a direction as a bit, 0 left and 1 right. -/
def Dir.bit : Dir → Bool
  | .left => false
  | .right => true

/-- R174, R176: the direction of a bit. -/
def Dir.ofBit (b : Bool) : Dir := if b then .right else .left

/-- R174: the 88 bits of a PASS payload at an age; an absent field is sent as 0. -/
def encodePass (p : PassBody) (age : Nat) : BitVec 88 :=
  let count : BitVec 4 := p.pressed.getD 0
  let dir : Bool := match p.order with | some o => Dir.bit o.dir | none => false
  let remaining : Nat := match p.order with | some o => o.remaining | none => 0
  p.code ++ Lane.field p.laneIn ++ Lane.field p.laneOut ++ p.outcome.code ++ BitVec.ofBool p.pressed.isSome ++
    BitVec.ofBool p.order.isSome ++ BitVec.ofBool dir ++ count ++ BitVec.ofNat 3 remaining ++
    BitVec.ofBool p.pace.fast ++ BitVec.ofBool p.pace.slow ++ 0#3 ++ BitVec.ofNat 12 p.pace.ticks ++
    BitVec.ofNat 16 age ++ 0#1 ++ BitVec.ofNat 15 p.startOffset ++ 0#1 ++ BitVec.ofNat 15 p.endOffset

/-- A PASS notice as it is read: its outcome is none for a code of 18 to 31 (R174). -/
structure PassNotice where
  code : CarCode
  laneIn : Lane
  laneOut : Lane
  outcome : Option Outcome
  pressed : Option (BitVec 4)
  order : Option OrderField
  pace : Pace
  age : Nat
  startOffset : Nat
  endOffset : Nat
deriving DecidableEq, Repr

/-- R174: a PASS payload as it is read; a field whose present flag is 0 is not read. -/
def decodePass (x : BitVec 88) : PassNotice :=
  { code := x.extractLsb' 84 4
    laneIn := Lane.ofField (x.extractLsb' 82 2)
    laneOut := Lane.ofField (x.extractLsb' 80 2)
    outcome := Outcome.ofCode (x.extractLsb' 75 5).toNat
    pressed := if x.getLsbD 74 then some (x.extractLsb' 68 4) else none
    order := if x.getLsbD 73 then some { dir := Dir.ofBit (x.getLsbD 72), remaining := (x.extractLsb' 65 3).toNat }
             else none
    pace := { ticks := (x.extractLsb' 48 12).toNat, fast := x.getLsbD 64, slow := x.getLsbD 63 }
    age := (x.extractLsb' 32 16).toNat
    startOffset := (x.extractLsb' 16 15).toNat
    endOffset := (x.extractLsb' 0 15).toNat }

/-! ## The other payloads (R175) -/

/-- R175: the 48 bits of a BIND payload. -/
def encodeBind (b : BindBody) : BitVec 48 :=
  b.code ++ BitVec.ofBool b.kept ++ 0#3 ++ b.handset ++ b.stamp ++ 0#2 ++ b.origin

/-- R175: a BIND payload as it is read. -/
def decodeBind (x : BitVec 48) : BindBody :=
  { code := x.extractLsb' 44 4, kept := x.getLsbD 43, handset := x.extractLsb' 24 16, stamp := x.extractLsb' 8 16,
    origin := x.extractLsb' 0 6 }

/-- R175: the 24 bits of a BEACON payload. -/
def encodeBeacon (ds dm lanes : Nat) : BitVec 24 :=
  BitVec.ofNat 10 ds ++ BitVec.ofNat 10 dm ++ BitVec.ofNat 3 lanes ++ 0#1

/-- R175: a BEACON payload as it is read. -/
def decodeBeacon (x : BitVec 24) : Geometry :=
  { ds := (x.extractLsb' 14 10).toNat, dm := (x.extractLsb' 4 10).toNat, lanes := (x.extractLsb' 1 3).toNat }

/-- R175: the 128 bits of a block image: 15 field bytes, then the check byte. -/
def encodeBlock (b : Block) : BitVec 128 := b.fields ++ b.check

/-- R175: a block image as it is read. -/
def decodeBlock (x : BitVec 128) : Block := { fields := x.extractLsb' 8 120, check := x.extractLsb' 0 8 }

/-- The word of `w` bits that a payload spells. -/
def payloadWord (w : Nat) (payload : List Bool) : BitVec w := BitVec.ofNat w (natOfBits payload)

/-- The kind of a frame body. -/
def FrameBody.kind : FrameBody → FrameKind
  | .pass _ => .pass
  | .bind _ => .bind
  | .heat => .heat
  | .join => .join
  | .beacon .. => .beacon
  | .cfgd _ => .cfgd

/-- R173 to R175: the payload bits of a frame body at a payload-start time; only a PASS depends on it (R11). -/
def FrameBody.payload (b : FrameBody) (payloadStart : Time) : List Bool :=
  match b with
  | .pass p => bitsOf (encodePass p (noticeAge payloadStart p.tRef))
  | .bind x => bitsOf (encodeBind x)
  | .heat => []
  | .join => []
  | .beacon ds dm lanes => bitsOf (encodeBeacon ds dm lanes)
  | .cfgd blk => bitsOf (encodeBlock blk)

/-- R147: the wire bits of a queued frame for an attempt with that payload start. -/
def TxFrame.wire (f : TxFrame) (payloadStart : Time) : List Bool :=
  frameWire f.level f.body.kind f.originator (f.body.payload payloadStart)

/-! ## The characters of the handset line (R36, R176) -/

/-- One character: its eight data bits, and whether its stop bit read as a mark. -/
structure SerialChar where
  data : Byte
  stopOk : Bool
deriving DecidableEq, Repr

/-- R176: the levels of a character on the line: the start space, the data bits with the lowest first, the stop bit. -/
def SerialChar.levels (c : SerialChar) : List Bool := false :: (bitsOf c.data).reverse ++ [c.stopOk]

/-- R176: where the receiver stands: the line has not read as a mark since the last character; it has; or a character is being
received, with its data bits so far. -/
inductive LineReader where
  | space
  | mark
  | data (bits : List Bool)
deriving DecidableEq, Repr

/-- R36, R176: one bit time of the line: a character begins at the first space after a mark, and is received with its stop bit. -/
def LineReader.read (x : LineReader) (level : Bool) : LineReader × Option SerialChar :=
  match x with
  | .space => (if level then .mark else .space, none)
  | .mark => (if level then .mark else .data [], none)
  | .data bits =>
    if bits.length < 8 then (.data (bits ++ [level]), none)
    else (if level then .mark else .space, some { data := BitVec.ofNat 8 (natOfBits bits.reverse), stopOk := level })

/-- R36: an open run: its characters, the bit times since its first start bit, and those since its last character. -/
structure OpenRun where
  chars : List SerialChar
  bits : Nat
  quiet : Nat
deriving DecidableEq, Repr

/-- R36: a run that a character opens. -/
def OpenRun.first (c : SerialChar) : OpenRun := { chars := [c], bits := Config.charBits, quiet := 0 }

/-- R36: a run after one more bit time, in which a character is received or none. -/
def OpenRun.next (r : OpenRun) : Option SerialChar → OpenRun
  | some c => { chars := r.chars ++ [c], bits := r.bits + 1, quiet := 0 }
  | none => { r with bits := r.bits + 1, quiet := r.quiet + 1 }

/-- R36: a closed run: its characters, and the bit times from its first start bit to its close. -/
structure ClosedRun where
  chars : List SerialChar
  bits : Nat
deriving DecidableEq, Repr

/-- R36: the bit times of a run can lie across that many ticks: 625 ticks of 64 µs hold 4608 bit times at 115200 bit/s, and
where a bit lies in its tick is not told, so that the number is rounded down or up (log 14, DESIGN CHOICE). -/
def ClosedRun.spans (r : ClosedRun) (ticks : Nat) : Bool :=
  decide (ticks = 625 * r.bits / 4608) || decide (ticks = (625 * r.bits + 4607) / 4608)

/-- R36: the gathering of runs: the receiver, the open run, and the run that closed at the last bit time. -/
structure RunGatherer where
  reader : LineReader
  run : Option OpenRun
  closed : Option ClosedRun
deriving DecidableEq, Repr

/-- R36: one bit time. A run closes at the end of 2 ticks without a character (log 14, DESIGN CHOICE); a character received in
that bit time opens the next run. -/
def RunGatherer.read (g : RunGatherer) (level : Bool) : RunGatherer :=
  let (reader, char) := g.reader.read level
  match g.run with
  | none => { reader := reader, run := char.map OpenRun.first, closed := none }
  | some r =>
    if r.quiet + 1 < Config.quietBits then { reader := reader, run := some (r.next char), closed := none }
    else { reader := reader, run := char.map OpenRun.first,
           closed := some { chars := r.chars, bits := r.bits + 1 } }

/-- R36: the run that closes at the last of those levels, if one does. -/
def closedRun (levels : List Bool) : Option ClosedRun :=
  (levels.foldl RunGatherer.read { reader := .space, run := none, closed := none }).closed

/-! ## The frames of the handset line (R36, R176) -/

/-- The fields of an accepted handset frame (03, What a frame carries). -/
structure HandsetFrame where
  address : HandsetAddr
  pressCount : BitVec 4
  pressDir : Dir
  gesture : Gesture
  programCount : BitVec 2
  programDir : Dir
  programValue : Nat
deriving DecidableEq, Repr

/-- R176: the gesture of two bits. -/
def Gesture.ofBits (x : BitVec 2) : Gesture :=
  if x = 0 then .none else if x = 1 then .bind else if x = 2 then .bindKept else .release

/-- R36, R176: the frame a closed run spells, if it passes the four tests. -/
def handsetFrameOf (chars : List SerialChar) : Option HandsetFrame :=
  match chars with
  | [a, b, c, d, e] =>
    let address : HandsetAddr := a.data ++ b.data
    if a.stopOk && b.stopOk && c.stopOk && d.stopOk && e.stopOk
        && decide (e.data = ~~~(a.data ^^^ b.data ^^^ c.data ^^^ d.data))
        && decide (address ≠ 0#16) && decide (address ≠ 65535#16)
    then some
      { address := address, pressCount := c.data.extractLsb' 4 4, pressDir := Dir.ofBit (c.data.getLsbD 3),
        gesture := Gesture.ofBits (c.data.extractLsb' 1 2), programCount := d.data.extractLsb' 6 2,
        programDir := Dir.ofBit (d.data.getLsbD 5), programValue := (d.data.extractLsb' 2 3).toNat }
    else none
  | _ => none

/-! ## Marks (R20, R22, R32) -/

/-- R20: the classes of a mark. -/
inductive MarkClass where
  | short
  | long
  | sync
  | outOfClass
deriving DecidableEq, Repr

/-- R20: the class of a mark of that many ticks. -/
def classOfMark (ticks : Int) : MarkClass :=
  if 1 ≤ ticks ∧ ticks ≤ 3 then .short
  else if 4 ≤ ticks ∧ ticks ≤ 6 then .long
  else if 10 ≤ ticks ∧ ticks ≤ 14 then .sync
  else .outOfClass

/-- R20: a space is in class. -/
def spaceInClass (ticks : Int) : Bool := decide (1 ≤ ticks) && decide (ticks ≤ 3)

/-- R22: the code of a complete frame's eight bits, if the frame is valid. -/
def validCode (bits : List Bool) : Option CarCode :=
  let code := natOfBits (bits.take 4)
  if bits.length = 8 ∧ bits.drop 4 = (bits.take 4).map (!·) ∧ code ≠ 0 then some (BitVec.ofNat 4 code) else none

/-- R32: the 24 data marks of a notice, true being a long mark. -/
def Notice.marks (n : Notice) : List Bool := bitsOf n.code ++ bitsOf n.handset ++ bitsOf (~~~n.code)

/-- R32: the length of one data mark in ticks. -/
def markTicks (long : Bool) : Nat := if long then 5 else 2

/-- R32: the light a notice sends: each interval lit or dark with its ticks, from the sync mark to the last mark. -/
def Notice.light (n : Notice) : List (Bool × Nat) :=
  (true, 12) :: (n.marks.map (fun m => [(false, 2), (true, markTicks m)])).flatten

/-- R32: the length of a notice from the start of its sync mark to the end of its last mark. -/
def Notice.ticks (n : Notice) : Nat := (n.light.map (·.2)).sum

/-! ## The nonvolatile store (R163, R177) -/

/-- The fields of a block before they are judged: the sides as their two bits. -/
structure RawBlock where
  address : NodeAddr
  upstream : NodeAddr
  downstream : NodeAddr
  lanes : Nat
  sides : PerLane (BitVec 2)
  w : Nat
  ds : Nat
  dm : Nat
  lc : Nat
  gu : Nat
  gd : Nat
  guard : Nat
  lead : Nat
  requestHold : Nat
  blindHold : Nat
deriving DecidableEq, Repr

/-- R177: the fields at their places in the 120 bits. -/
def readFields (f : BitVec 120) : RawBlock :=
  { address := f.extractLsb' 114 6, upstream := f.extractLsb' 108 6, downstream := f.extractLsb' 102 6,
    lanes := (f.extractLsb' 99 3).toNat,
    sides := ⟨f.extractLsb' 97 2, f.extractLsb' 95 2, f.extractLsb' 93 2, f.extractLsb' 91 2⟩,
    w := (f.extractLsb' 85 6).toNat, ds := (f.extractLsb' 75 10).toNat, dm := (f.extractLsb' 65 10).toNat,
    lc := (f.extractLsb' 57 8).toNat, gu := (f.extractLsb' 44 13).toNat, gd := (f.extractLsb' 31 13).toNat,
    guard := (f.extractLsb' 23 8).toNat, lead := (f.extractLsb' 15 8).toNat,
    requestHold := (f.extractLsb' 9 6).toNat, blindHold := (f.extractLsb' 4 5).toNat }

/-- R177: the blade side of two bits; 11 is judged by R163 and reads as none here. -/
def sideOfBits (x : BitVec 2) : Option Dir :=
  if x = 1 then some .left else if x = 2 then some .right else none

/-- R164: the working values of a block's fields. -/
def RawBlock.working (b : RawBlock) : Working :=
  { address := b.address, upstream := b.upstream, downstream := b.downstream, lanes := b.lanes,
    sides := b.sides.map sideOfBits, w := b.w, ds := b.ds, dm := b.dm, lc := b.lc, gu := b.gu, gd := b.gd,
    guard := b.guard, lead := b.lead, requestHold := b.requestHold, blindHold := b.blindHold }

/-- R163 test 2: the bitwise complement of the exclusive-or of the 15 field bytes. -/
def checkByte (f : BitVec 120) : BitVec 8 :=
  ~~~([0, 8, 16, 24, 32, 40, 48, 56, 64, 72, 80, 88, 96, 104, 112].foldl
    (fun x i => x ^^^ f.extractLsb' i 8) 0#8)

/-- R163 test 2 on a block. -/
def Block.checkOk (b : Block) : Bool := decide (b.check = checkByte b.fields)

/-- R163: a neighbour address is 0 or 1 to 62, and not the node's own. -/
def neighbourOk (own n : NodeAddr) : Bool := decide (n ≠ Config.setupTool) && decide (n ≠ own)

/-- R163 test 6: the side of a lane is judged when the lane is 1 to N. -/
def sideOk (b : RawBlock) (l : Lane) : Bool :=
  decide (b.lanes < l.num) ||
    (decide (b.sides.get l ≠ 3) && !(decide (l.num = 1) && decide (b.sides.get l = 1))
      && !(decide (l.num = b.lanes) && decide (b.sides.get l = 2)))

/-- R5: a value lies in a range. -/
def inRange (lo hi n : Nat) : Bool := decide (lo ≤ n) && decide (n ≤ hi)

/-- R163 tests 3 to 7. -/
def RawBlock.ok (b : RawBlock) : Bool :=
  decide (b.address ≠ 0) && decide (b.address ≠ Config.setupTool)
    && neighbourOk b.address b.upstream && neighbourOk b.address b.downstream
    && inRange 2 4 b.lanes && Lane.all.all (sideOk b)
    && inRange 8 63 b.w && inRange 40 1023 b.ds && inRange 40 1023 b.dm && inRange 0 255 b.lc
    && (decide (b.gu = 0) || inRange 200 8191 b.gu) && (decide (b.gd = 0) || inRange 200 8191 b.gd)
    && inRange 0 255 b.guard && inRange 16 255 b.lead && inRange 2 32 b.requestHold && inRange 1 16 b.blindHold

/-- R163: a block read with its write mark is valid. -/
def Block.valid (b : Block) (writeMark : Byte) : Bool :=
  decide (writeMark = 0) && b.checkOk && (readFields b.fields).ok

/-- R177: the record of a binding entry in a save. -/
def saveRecord (b : Binding) : BitVec 40 :=
  BitVec.ofBool b.handset.isSome ++ BitVec.ofBool b.kept ++ b.origin ++ b.handset.getD 0 ++ b.stamp

/-- R177: a record as it is restored, where `taken` are the handsets of lower car codes restored BOUND. -/
def restoreRecord (taken : List HandsetAddr) (r : BitVec 40) : Binding :=
  let h : HandsetAddr := r.extractLsb' 16 16
  let origin : NodeAddr := r.extractLsb' 32 6
  { handset := if r.getLsbD 39 && decide (h ≠ 0) && decide (h ≠ 65535) && !taken.contains h then some h else none
    stamp := r.extractLsb' 0 16
    origin := if origin = 0 then Config.setupTool else origin
    kept := r.getLsbD 38
    standing := .empty }

/-- R177: the records restored in order of car code. -/
def restoreRecords : (taken : List HandsetAddr) → List (BitVec 40) → List Binding
  | _, [] => []
  | taken, r :: rest =>
    let b := restoreRecord taken r
    b :: restoreRecords (match b.handset with | some h => h :: taken | none => taken) rest

/-- A restore gives one entry per record. -/
theorem restoreRecords_length (taken : List HandsetAddr) (rs : List (BitVec 40)) :
    (restoreRecords taken rs).length = rs.length := by
  induction rs generalizing taken with
  | nil => rfl
  | cons r rest ih => simp [restoreRecords, ih]

/-- R68, R177: the binding entries of a save. -/
def restoreEntries (records : CodeTable (BitVec 40)) : CodeTable Binding :=
  ⟨restoreRecords [] records.cells, by rw [restoreRecords_length, records.size_eq]⟩

end Sys2Proof.Machine
end

