-- ==== Sys2Proof/Machine/Flags.lean ====
section
/-! DEFINITION. The conditions that the rules read from the state: what is on in a node state, what is bound, held, silent,
blind, and whether a time has arrived. -/

namespace Sys2Proof.Machine

/-! ## The node state -/

/-- SYNC or RUN: the states in which the handset port, the binding table and the claim table work (R35, R50, R132). -/
def NodeState.live : NodeState → Bool
  | .sync | .run => true
  | .off | .load | .setup | .holdup | .fault => false

/-- SYNC, RUN or FAULT: the states in which the gates work (R18) and the occupancy block records (R93). -/
def NodeState.watching : NodeState → Bool
  | .sync | .run | .fault => true
  | .off | .load | .setup | .holdup => false

/-- The states in which the controller reads the wire (R143). -/
def NodeState.listens : NodeState → Bool
  | .setup | .sync | .run | .fault => true
  | .off | .load | .holdup => false

/-- R18: a gate works in SYNC, RUN and FAULT when its lane is 1 to N. -/
def gateWorks (s : State) (l : Lane) : Bool := s.node.watching && decide (l.num ≤ s.working.lanes)

/-! ## Times -/

/-- A time that may be absent is present and has arrived. -/
def hasArrived (now : Time) : Option Time → Bool
  | some t => arrived now t
  | none => false

/-- A window end has arrived; an open end does not arrive (R79). -/
def endArrived (now : Time) : WindowEnd → Bool
  | .at t => arrived now t
  | .open => false

/-! ## Bindings -/

/-- The car bound to a handset, the lowest code first; by R53 there is at most one. -/
def boundCar (entries : CodeTable Binding) (h : HandsetAddr) : Option Car :=
  Car.all.find? (fun c => decide ((entries.get c).handset = some h))

/-- R37: a handset is bound. -/
def isBound (s : State) (h : HandsetAddr) : Bool := (boundCar s.bind.entries h).isSome

/-- The handset a car code is bound to; none for code 0 and for a FREE entry (R96). -/
def boundHandset (s : State) (c : CarCode) : Option HandsetAddr :=
  match Car.ofCode c with
  | some car => (s.bind.entries.get car).handset
  | none => none

/-- The handset entry of an address. -/
def handsetEntry (s : State) (a : HandsetAddr) : Option HandsetEntry :=
  s.handsets.find? (fun e => decide (e.address = a))

/-- R43: the latched request of a handset. -/
def latchedRequest (s : State) (a : HandsetAddr) : Option Request :=
  match handsetEntry s a with
  | some e => e.request
  | none => none

/-- R39: an entry's last-heard time lies 31250 ticks or more in the past. -/
def isStale (now : Time) (e : HandsetEntry) : Bool := arrived now (Time.plus e.lastHeard Config.staleTicks)

/-- R45: the kind of gesture an entry holds fresh, NONE when it holds none. -/
def HandsetEntry.freshGesture (e : HandsetEntry) : Gesture := if e.fresh then e.gesture else .none

/-- R54: a gesturing handset. -/
def HandsetEntry.gesturing (e : HandsetEntry) : Bool := decide (e.freshGesture ≠ .none)

/-- R5: the request hold in ticks. -/
def requestHoldTicks (g : Working) : Nat := g.requestHold * Config.holdUnit

/-- R5: the blind hold in ticks. -/
def blindHoldTicks (g : Working) : Nat := g.blindHold * Config.holdUnit

/-! ## Gates -/

/-- The gate is IDLE (R107). -/
def Gate.isIdle (g : Gate) : Bool :=
  match g.state with
  | .idle => true
  | .open _ | .stall .. => false

/-- The gate is in STALL. -/
def Gate.isStalled (g : Gate) : Bool :=
  match g.state with
  | .stall .. => true
  | .idle | .open _ => false

/-- R54: the decoded code of a gate in STALL. -/
def Gate.codedStall (g : Gate) : Option CarCode :=
  match g.state with
  | .stall _ _ d => d
  | .idle | .open _ => none

/-- R54: the coded stalls of the node, in order of lane. -/
def codedStalls (s : State) : List (Lane × CarCode) :=
  Lane.all.filterMap (fun l => (s.gates.get l).codedStall.map (fun c => (l, c)))

/-! ## Occupancy and neighbours -/

/-- R84: a lane is held while its hold-until is present. -/
def isHeld (s : State) (l : Lane) : Bool := (s.occ.holds.get l).isSome

/-- R92: a neighbour record is silent; an absent last-heard time is not. -/
def isSilent (now : Time) (r : NeighbourRecord) : Bool :=
  match r.lastHeard with
  | some t => arrived now (Time.plus t Config.silenceTicks)
  | none => false

/-- R92: the node is blind upstream. -/
def isBlind (s : State) : Bool := decide (s.working.gu ≠ 0) && isSilent s.now s.occ.up

/-! ## The checks that read the collections (R110 to R113) -/

/-- A car that a check sets aside: identified, and one of those codes. -/
def setAside (codes : List CarCode) (c : CarCode) : Bool := decide (c ≠ 0) && codes.contains c

/-- R110: a car of lane in that is not set aside has its blade time in [throw, release]. -/
def followingConflict (s : State) (lane : Lane) (aside : List CarCode) (hold : Window) : Bool :=
  s.occ.list.any (fun e => decide (e.kind = .passage) && decide (e.lane = lane) && !setAside aside e.code
      && hold.contains (bladeTime s.working e.tRef e.pace.ticks))
    || s.occ.approach.any (fun r => decide (r.lane = lane) && !setAside aside r.code && hold.contains r.bladeTime)

/-- R111: the window conflicts with a window in the target lane, the TARGET entry linked to `ownSlot` set aside. -/
def targetConflict (s : State) (target : Lane) (w : Window) (ownSlot : Option Lane) : Bool :=
  s.occ.list.any (fun e => decide (e.lane = target) && w.meets e.start e.stop
      && !(decide (e.kind = .target) && e.link.isSome && decide (e.link = ownSlot)))
    || s.occ.approach.any (fun r => decide (r.lane = target) && w.conflicts r.window)

/-- R112: the node is blind, and the target lane's last close lies no more than the blind hold before `at_`. -/
def blindConflict (s : State) (target : Lane) (at_ : Time) : Bool :=
  isBlind s &&
    match s.occ.lastClose.get target with
    | some t => !Time.spanExceeds t at_ (blindHoldTicks s.working)
    | none => false

/-- R113: the downstream merge is claimed. -/
def downstreamConflict (s : State) (target : Lane) (tRef : Time) (pace : Nat) : Bool :=
  decide (s.working.gd ≠ 0) &&
    s.grants.claims.any (fun c => decide (c.lane = target) &&
      match s.occ.down.geometry with
      | some n => (downstreamWindow s.working n tRef pace).conflicts c.window
      | none => true)

/-- R107: the target lane's gate is in STALL or OPEN. -/
def gateConflict (s : State) (target : Lane) : Bool := !(s.gates.get target).isIdle

/-! ## Blades -/

/-- R133: the lane a blade carries cars into. -/
def bladeTarget (s : State) (l : Lane) : Option Lane :=
  match s.working.sides.get l with
  | some d => Lane.beside l d
  | none => none

/-- R108: the blade of lane in is busy for a candidate whose throw is `throwAt`. -/
def bladeBusy (s : State) (l : Lane) (throwAt : Time) (withdrawn : Bool) : Bool :=
  let b := s.blades.get l
  decide (b.state ≠ .rest)
    || (match b.coolingEnd with | some t => Time.before throwAt t | none => false)
    || (s.grants.slots.get l).isSome
    || withdrawn

/-- R134: a blade whose coil is tested: its lane is 1 to N and its side is not none. -/
def isTested (g : Working) (l : Lane) : Bool := decide (l.num ≤ g.lanes) && (g.sides.get l).isSome

/-- R134: the next lane to be tested after lane number `n`. -/
def nextTested (g : Working) (n : Nat) : Option Lane :=
  Lane.all.find? (fun l => decide (n < l.num) && isTested g l)

end Sys2Proof.Machine
end

