-- ==== Sys2Proof/Machine/Emitter.lean ====
section
/-! DEFINITION. The emitters of the lane gates (R31 to R34), with the commands NOTICE_COMPLETE and BLANKING_END. -/

namespace Sys2Proof.Machine

/-- R31, R33: a notice starts: the emitter is SENDING, blanking runs until 4 ticks after the last mark, and the decoder drops
its frame. -/
def Gate.startNotice (g : Gate) (now : Time) (n : Notice) : Gate :=
  { g with sending := some { notice := n, ends := Time.plus now n.ticks },
           blanking := some (Time.plus (Time.plus now n.ticks) Config.blankingTail), decoder := .hunt }

/-- R31: a request in STALL: it starts at once, or becomes the pending notice. -/
def Gate.request (g : Gate) (now : Time) (n : Notice) : Gate :=
  match g.sending with
  | some _ => { g with waiting := some n }
  | none => g.startNotice now n

/-- R31, R59: a request for a run's next notice. Where it begins blanking, the frame it drops from the decoder is set aside for
a code change of this very tick (log 36, DEDUCED). -/
def Gate.requestNext (g : Gate) (now : Time) (n : Notice) : Gate :=
  { (g.request now n) with dropped := if g.sending.isNone && g.blanking.isNone then some g.decoder else g.dropped }

/-- R34: a notice in progress is stopped, the pending one discarded, and blanking ends. Where none is in progress, blanking
that is still to run its last ticks goes on to its end (R33). -/
def Gate.stopNotice (g : Gate) : Gate :=
  { g with sending := none, waiting := none, blanking := if g.sending.isSome then none else g.blanking }

/-- R31: a request is taken in SYNC or RUN while the gate is in STALL, and dropped otherwise. -/
def requestNotice (s : State) (l : Lane) (n : Notice) : State :=
  if s.node.live && (s.gates.get l).isStalled then s.setGate l ((s.gates.get l).request s.now n) else s

/-- R31, R58: a run's next notice is requested, under the same condition. -/
def requestNext (s : State) (l : Lane) (n : Notice) : State :=
  if s.node.live && (s.gates.get l).isStalled then s.setGate l ((s.gates.get l).requestNext s.now n) else s

/-- R31: a notice has been sent in full: the pending one starts, its blanking running on (R33), or the emitter is IDLE. -/
def Gate.completeNotice (g : Gate) (now : Time) : Gate :=
  match g.waiting with
  | some n => { (g.startNotice now n) with waiting := none }
  | none => { g with sending := none }

/-- NOTICE_COMPLETE (R31), taken when the notice's last mark has ended. -/
def noticeComplete (l : Lane) (s : State) : State :=
  match (s.gates.get l).sending with
  | some d => if arrived s.now d.ends then s.setGate l ((s.gates.get l).completeNotice s.now) else s
  | none => s

/-- NOTICE_COMPLETE (R31). -/
def execNoticeComplete (lane : Lane) (s : State) : Result := .next (noticeComplete lane s)

/-- BLANKING_END (R33): 4 ticks after the last mark of the last notice, sampling resumes against the level held. -/
def blankingEnd (l : Lane) (s : State) : State :=
  let g := s.gates.get l
  if g.sending.isNone && hasArrived s.now g.blanking then s.setGate l { g with blanking := none } else s

/-- BLANKING_END (R33). -/
def execBlankingEnd (lane : Lane) (s : State) : Result := .next (blankingEnd lane s)

end Sys2Proof.Machine
end

