-- ==== Sys2Proof/Machine/Queue.lean ====
section
/-! DEFINITION. The transmit queue (R154, R155, R156) and the replay cursor that feeds it (R63). -/

namespace Sys2Proof.Machine

/-- R143: the frames the queue takes in a node state; others handed in are discarded. -/
def acceptsFrame (n : NodeState) (b : FrameBody) : Bool :=
  match n with
  | .sync | .run => true
  | .setup => decide (b.kind = .cfgd)
  | .off | .load | .holdup | .fault => false

/-- R155: a PASS with outcome TAKEN. -/
def TxFrame.isTaken (f : TxFrame) : Bool :=
  match f.body with
  | .pass p => decide (p.outcome = .taken)
  | .bind _ | .heat | .join | .beacon .. | .cfgd _ => false

/-- R157: a BEACON. -/
def TxFrame.isBeacon (f : TxFrame) : Bool := decide (f.body.kind = .beacon)

/-- The greatest level number of a queue. -/
def greatestLevel (q : List TxFrame) : Nat := q.foldl (fun n f => max n f.level.toNat) 0

/-- R156: the place of the frame that is dropped from a full queue: of the least urgent level present the earliest, or,
when all are at level 0, the earliest PASS that is no TAKEN. -/
def dropPlace (q : List TxFrame) : Option Nat :=
  if greatestLevel q = 0 then q.findIdx? (fun f => decide (f.body.kind = .pass) && !f.isTaken)
  else q.findIdx? (fun f => decide (f.level.toNat = greatestLevel q))

/-- R156: the queue with room for one more frame; none where the rule finds no frame to drop (log 23, DESIGN CHOICE). -/
def makeRoom (q : List TxFrame) : Option (List TxFrame) :=
  if q.length < Config.queueCap then some q else (dropPlace q).map (fun i => q.eraseIdx i)

/-- R154: a frame entered in its place: after every frame of its level or a more urgent one. -/
def enterFrame (f : TxFrame) (q : List TxFrame) : List TxFrame :=
  enterInOrder (fun y => decide (f.level.toNat < y.level.toNat)) f q

/-- The frame a block hands in now (R154), with the model's number. In SETUP its originator is the setup address (R165). -/
def newFrame (s : State) (level : BitVec 2) (body : FrameBody) (deadline : Time) (owner : Owner) : TxFrame :=
  { id := s.line.nextId, level := level,
    originator := if s.node = .setup then s.sup.setupAddress else s.working.address,
    body := body, deadline := deadline, queued := s.now, owner := owner }

/-- R154: the queue after a frame is handed in: discarded where the node state takes none, removed at once when its
deadline has arrived, and otherwise entered with room made under R156. -/
def queueAfter (node : NodeState) (now : Time) (f : TxFrame) (q : List TxFrame) : List TxFrame :=
  if !acceptsFrame node f.body || arrived now f.deadline then q
  else match makeRoom q with
    | some r => enterFrame f r
    | none => q

/-- R154: a frame is handed in. -/
def handIn (s : State) (level : BitVec 2) (body : FrameBody) (deadline : Time) (owner : Owner) : State :=
  { s with line := { s.line with
      queue := queueAfter s.node s.now (newFrame s level body deadline owner) s.line.queue,
      nextId := s.line.nextId + 1 } }

/-- R60, R63: the BIND frame of an entry as it stands. -/
def bindBody (c : Car) (b : Binding) : BindBody :=
  { code := c.code, handset := b.handset.getD 0, stamp := b.stamp, origin := b.origin, kept := b.kept }

/-- R63: the first entry from a position on whose stamp is above 0. -/
def nextReplay (entries : CodeTable Binding) (start : Car) : Option Car :=
  Car.all.find? (fun c => decide (start.val ≤ c.val) && decide ((entries.get c).stamp ≠ 0))

/-- The entry after an entry; none after the fifteenth (log 18, DEDUCED). -/
def Car.next (c : Car) : Option Car := if h : c.val + 1 < 15 then some ⟨c.val + 1, h⟩ else none

/-- The replay cursor replaced. -/
def State.setCursor (s : State) (c : Option Car) : State := { s with bind := { s.bind with cursor := c } }

/-- R63: one feed of the replay cursor. -/
def feedOnce (s : State) : State :=
  match s.bind.cursor with
  | none => s
  | some c =>
    if Config.replayBound ≤ s.line.queue.length then s
    else match nextReplay s.bind.entries c with
      | none => s.setCursor none
      | some d =>
        (handIn s 2 (.bind (bindBody d (s.bind.entries.get d))) (Time.plus s.now Config.bindDeadline) .bindingTable).setCursor
          (Car.next d)

/-- Feeds repeated. -/
def feedTimes : Nat → State → State
  | 0, s => s
  | n + 1, s => feedTimes n (feedOnce s)

/-- R63: feeding within one event, until the queue holds 4 frames or the cursor is absent: at most four frames, and
one feed more to find no further entry. -/
def feed (s : State) : State := feedTimes (Config.replayBound + 1) s

/-- R155: a frame leaves the queue, and the cursor feeds when the count has fallen below 4 (R63; log 17, DEDUCED). -/
def removeFrame (s : State) (id : Nat) : State :=
  if s.line.queue.any (fun f => decide (f.id = id)) then
    feed (s.setQueue (s.line.queue.filter (fun f => decide (f.id ≠ id))))
  else s

/-- A PASS notice is handed in at level 0 (R116, R118, R127). -/
def queuePass (s : State) (p : PassBody) (deadline : Time) (owner : Owner) : State := handIn s 0 (.pass p) deadline owner

/-- R60: a live BIND frame of an entry is handed in. -/
def queueLiveBind (s : State) (c : Car) : State :=
  handIn s 1 (.bind (bindBody c (s.bind.entries.get c))) (Time.plus s.now Config.bindDeadline) .bindingTable

/-- R158: a HEAT frame is handed in. -/
def queueHeat (s : State) : State := handIn s 1 .heat (Time.plus s.now Config.bindDeadline) .supervisor

/-- R158: a JOIN frame is handed in. -/
def queueJoin (s : State) : State := handIn s 2 .join (Time.plus s.now Config.bindDeadline) .supervisor

/-- R158, R165: a CFGD frame with the block image is handed in. -/
def queueCfgd (s : State) : State :=
  handIn s 3 (.cfgd s.sup.mirror.image) (Time.plus s.now Config.beaconTicks) .supervisor

/-- R157: a BEACON frame is handed in. -/
def queueBeacon (s : State) : State :=
  handIn s 3 (.beacon s.working.ds s.working.dm s.working.lanes) (Time.plus s.now Config.beaconTicks) .controller

end Sys2Proof.Machine
end

