-- ==== Sys2Proof/Machine/Bindings.lean ====
section
/-! DEFINITION. The binding table (04) and its standing orders (05): the stamp rule, local bind and release, notice runs, HEAT,
the replay, and the commands NOTICE_RUN_REPEAT. The section line's BIND, JOIN and HEAT reach it through Line.lean, the
save through Supervisor.lean. -/

namespace Sys2Proof.Machine

/-! ## Standing orders (R69 to R76) -/

/-- The order of a car's entry changed by a function. -/
def updateStanding (s : State) (c : Car) (f : Standing → Standing) : State :=
  s.setBinding c { s.bind.entries.get c with standing := f (s.bind.entries.get c).standing }

/-- R70: what a program leaves. -/
def programmed (d : Dir) (value : Nat) : Standing := if value = 0 then .empty else .order d value

/-- R73: a decision taken under the order that ends in TAKEN or SHARED. -/
def Standing.countDown : Standing → Standing
  | .order d n => if n ≤ 1 then .runOut d else .order d (n - 1)
  | .runOut d => .runOut d
  | .empty => .empty

/-- R74: a grant taken under the order in direction `d` is withdrawn or aborted. -/
def Standing.restore (d : Dir) : Standing → Standing
  | .order e n => if e = d then .order e (min 7 (n + 1)) else .order e n
  | .runOut e => if e = d then .order d 1 else .runOut e
  | .empty => .empty

/-- R75: the outcomes that revive a run-out mark. -/
def Outcome.ends : Outcome → Bool
  | .yielded | .late | .aborted => true
  | .notReady | .stalled | .straight | .kept | .noLane | .laneHeld | .blockedTarget | .bladeBusy | .tooClose
  | .following | .blind | .blockedDownstream | .shared | .swept | .taken => false

/-- R75: a notice's order field at a receiver. -/
def Standing.receive (o : OrderField) (outcome : Outcome) : Standing → Standing
  | .order d _ => if o.remaining = 0 then .runOut d else .order d o.remaining
  | .runOut d => if o.remaining ≠ 0 ∧ outcome.ends = true then .order o.dir o.remaining else .runOut d
  | .empty => .empty

/-- R73: the order field of a notice: the order held, or remaining 0 where this decision ran the order out. -/
def Standing.field (ranOut : Bool) : Standing → Option OrderField
  | .order d n => some ⟨d, n⟩
  | .runOut d => if ranOut then some ⟨d, 0⟩ else none
  | .empty => none

/-- R73, R74: the order field of a car code, absent for code 0. -/
def orderField (s : State) (c : CarCode) (ranOut : Bool) : Option OrderField :=
  match Car.ofCode c with
  | some car => (s.bind.entries.get car).standing.field ranOut
  | none => none

/-- R74: an order is given back for a car code. -/
def restoreOrder (s : State) (c : CarCode) (d : Dir) : State :=
  match Car.ofCode c with
  | some car => updateStanding s car (Standing.restore d)
  | none => s

/-- R71: a press of a handset cancels the order of its car. -/
def pressTaken (s : State) (h : HandsetAddr) : State :=
  match boundCar s.bind.entries h with
  | some c => updateStanding s c (fun _ => .empty)
  | none => s

/-- R46, R70: a program of a handset sets or cancels the order of its car. -/
def programTaken (s : State) (h : HandsetAddr) (d : Dir) (value : Nat) : State :=
  match boundCar s.bind.entries h with
  | some c => updateStanding s c (fun _ => programmed d value)
  | none => s

/-! ## The stamp rule (R51 to R53) -/

/-- A proposal (R51). -/
structure Proposal where
  car : Car
  handset : Option HandsetAddr
  stamp : BitVec 16
  origin : NodeAddr
  kept : Bool
deriving DecidableEq, Repr

/-- R52: the proposal is newer than the entry. -/
def Proposal.newer (p : Proposal) (b : Binding) : Bool :=
  decide (b.stamp.toNat < p.stamp.toNat) || (decide (p.stamp = b.stamp) && decide (p.origin.toNat < b.origin.toNat))

/-- An entry that becomes FREE keeps its stamp, origin and kept flag (R49). -/
def Binding.freed (b : Binding) : Binding := { b with handset := none, standing := .empty }

/-- R53 step 1: an entry bound to the handset of another car's proposal becomes FREE. -/
def Binding.freedFrom (h : Option HandsetAddr) (b : Binding) : Binding :=
  if h.isSome ∧ b.handset = h then b.freed else b

/-- R53: the entry of the proposal's car. -/
def Proposal.entry (p : Proposal) (b : Binding) : Binding :=
  { handset := p.handset, stamp := p.stamp, origin := p.origin, kept := p.kept,
    standing := if p.handset = b.handset then b.standing else .empty }

/-- R53: the table after a newer proposal. -/
def Proposal.entries (p : Proposal) (t : CodeTable Binding) : CodeTable Binding :=
  (t.map (Binding.freedFrom p.handset)).set p.car (p.entry (t.get p.car))

/-- R39, R50: the port is told of a handset left bound to none; a stale entry is removed at once (log 21, DEDUCED). -/
def toldUnbound (s : State) (h : HandsetAddr) : State :=
  if isBound s h then s
  else match handsetEntry s h with
    | some e => if isStale s.now e then s.dropHandset h else s
    | none => s

/-- R53: a newer proposal is applied. -/
def applyProposal (s : State) (p : Proposal) : State :=
  let before := s.bind.entries.get p.car
  let s' : State := { s with bind := { s.bind with entries := p.entries s.bind.entries, unsaved := true } }
  match before.handset with
  | some h => if p.handset = some h then s' else toldUnbound s' h
  | none => s'

/-- R52, R53, R61: a proposal is judged, and applied when newer. -/
def judgeProposal (s : State) (p : Proposal) : State :=
  if p.newer (s.bind.entries.get p.car) then applyProposal s p else s

/-- R51: the proposal of a received BIND frame; none where it is discarded. -/
def BindBody.proposal (b : BindBody) : Option Proposal :=
  match Car.ofCode b.code with
  | none => none
  | some c =>
    if b.handset = 65535 ∨ b.origin = 0 then none
    else some { car := c, handset := if b.handset = 0 then none else some b.handset, stamp := b.stamp,
                origin := b.origin, kept := b.kept }

/-! ## Local bind and release (R54 to R58) -/

/-- R58: the notice a run hands over: the car and the handset of its entry as it stands, 0 when FREE. -/
def runNotice (s : State) (c : Car) : Notice :=
  { code := c.code, handset := (s.bind.entries.get c).handset.getD 0 }

/-- R58: a notice run starts at a gate with its first notice; it replaces any run there. -/
def startRun (s : State) (l : Lane) (c : Car) : State :=
  (requestNotice s l (runNotice s c)).setRun l
    (some { car := c, count := 1, nextAt := Time.plus s.now Config.noticeInterval })

/-- R55: one more than a stamp, held at 65535. -/
def nextStamp (n : BitVec 16) : BitVec 16 := if n = 65535 then n else n + 1

/-- R55, R56: the proposal of the local rule for a gesture, if the rule makes one. -/
def localProposal (own : NodeAddr) (c : Car) (b : Binding) (h : HandsetAddr) (g : Gesture) : Option Proposal :=
  let bindTo (k : Bool) : Option Proposal :=
    if b.handset = some h ∧ b.kept = k then none
    else some { car := c, handset := some h, stamp := nextStamp b.stamp, origin := own, kept := k }
  match g with
  | .none => none
  | .bind => bindTo false
  | .bindKept => bindTo true
  | .release =>
    if b.handset = some h then
      some { car := c, handset := none, stamp := nextStamp b.stamp, origin := own, kept := false }
    else none

/-- R55, R56, R57: a local proposal is judged; when newer it is applied, its live BIND queued and a notice run started. -/
def localBind (s : State) (l : Lane) (p : Proposal) : State :=
  if p.newer (s.bind.entries.get p.car) then startRun (queueLiveBind (applyProposal s p) p.car) l p.car else s

/-- R54: the local bind condition is judged. -/
def judgeLocal (s : State) : State :=
  if s.node.live then
    match codedStalls s, s.handsets.filter (fun e => e.gesturing) with
    | [(l, code)], [e] =>
      match Car.ofCode code with
      | some c =>
        match localProposal s.working.address c (s.bind.entries.get c) e.address e.freshGesture with
        | some p => localBind s l p
        | none => s
      | none => s
    | _, _ => s
  else s

/-! ## Reports from the gates (R27, R28, R59) -/

/-- R59: a notice run at a gate ends when the decoded code becomes another car's. -/
def endRunOnCode (s : State) (l : Lane) (code : CarCode) : State :=
  match s.bind.runs.get l with
  | some r => if r.car.code = code then s else s.setRun l none
  | none => s

/-- R54, R59: a gate reports a new decoded code. The binding table acts in SYNC and RUN only (R50). -/
def codeReported (s : State) (l : Lane) (code : CarCode) : State :=
  if s.node.live then judgeLocal (endRunOnCode s l code) else s

/-- R54, R59: a gate reports the end of its stall. -/
def stallEndReported (s : State) (l : Lane) : State := if s.node.live then judgeLocal (s.setRun l none) else s

/-! ## HEAT (R47, R64) and the replay (R62) -/

/-- R64: an entry after a HEAT. -/
def Binding.heated (b : Binding) : Binding :=
  if b.handset.isSome && !b.kept then b.freed else { b with standing := .empty }

/-- R64: the handsets a HEAT frees. -/
def heatFreed (t : CodeTable Binding) : List HandsetAddr :=
  t.cells.filterMap (fun b => if b.kept then none else b.handset)

/-- R64: HEAT at the binding table. -/
def heatBindings (s : State) : State :=
  let freed := heatFreed s.bind.entries
  let s' : State := { s with bind := { s.bind with entries := s.bind.entries.map Binding.heated,
                                                   unsaved := s.bind.unsaved || !freed.isEmpty } }
  freed.foldl toldUnbound s'

/-- R47: HEAT at the handset port: every latched request is removed. -/
def heatRequests (s : State) : State := { s with handsets := s.handsets.map (fun e => { e with request := none }) }

/-- R47, R64: HEAT is applied at the node. -/
def applyHeat (s : State) : State := heatRequests (heatBindings s)

/-- R62: a JOIN from the configured downstream neighbour starts the replay cursor at entry 1, and it feeds. -/
def joinTaken (s : State) (originator : NodeAddr) : State :=
  if originator = s.working.downstream ∧ originator ≠ 0 then feed (s.setCursor (some 0)) else s

/-! ## NOTICE_RUN_REPEAT (R58) -/

/-- R58: a further notice of a run: the request, the count, the next time; the run ends with its fortieth. -/
def repeatRun (s : State) (l : Lane) (r : NoticeRun) : State :=
  (requestNext s l (runNotice s r.car)).setRun l
    (if r.count + 1 < Config.noticesOfRun then
      some { r with count := r.count + 1, nextAt := Time.plus r.nextAt Config.noticeInterval } else none)

/-- NOTICE_RUN_REPEAT (R58), taken in SYNC or RUN when the run's next notice time has arrived. -/
def noticeRunRepeat (l : Lane) (s : State) : State :=
  match s.bind.runs.get l with
  | some r => if s.node.live && arrived s.now r.nextAt then repeatRun s l r else s
  | none => s

/-- NOTICE_RUN_REPEAT (R58). -/
def execNoticeRunRepeat (lane : Lane) (s : State) : Result := .next (noticeRunRepeat lane s)

end Sys2Proof.Machine
end

