-- ==== Sys2Proof/Machine/Occupancy.lean ====
section
/-! DEFINITION. The occupancy block (06): the occupancy list, lane holds, last closes, the approach list and the neighbour
records, with OCCUPANCY_EXPIRY, LANE_HOLD_END, APPROACH_EXPIRY and NEIGHBOUR_SILENCE. -/

namespace Sys2Proof.Machine

/-! ## Lane holds (R84) -/

/-- R84: the hold-until of a lane after a request for a time. -/
def raisedHold (now : Time) (held : Option Time) (e : Time) : Option Time :=
  if arrived now e then held
  else match held with
    | none => some e
    | some t => if Time.before t e then some e else some t

/-- R84: a hold request; one for a lane outside 1 to N is not kept. -/
def holdRequest (s : State) (l : Lane) (e : Time) : State :=
  if l.num ≤ s.working.lanes then s.setHold l (raisedHold s.now (s.occ.holds.get l) e) else s

/-- LANE_HOLD_END (R84), taken when the lane's hold-until has arrived. -/
def laneHoldEnd (l : Lane) (s : State) : State :=
  if hasArrived s.now (s.occ.holds.get l) then s.setHold l none else s

/-- LANE_HOLD_END (R84). -/
def execLaneHoldEnd (lane : Lane) (s : State) : Result := .next (laneHoldEnd lane s)

/-! ## The occupancy list (R77 to R83) -/

/-- R83: one window end is before another; an open end is later than every closed one. -/
def WindowEnd.before : WindowEnd → WindowEnd → Bool
  | .at a, .at b => Time.before a b
  | .at _, .open => true
  | .open, _ => false

/-- R83: the place of the entry a full list evicts. -/
def occupancyVictim (es : List OccupancyEntry) : Nat := earliest (fun a b => WindowEnd.before a.stop b.stop) es

/-- R83: room for a new entry: the entry that ends first is evicted and its lane held until that end. -/
def makeOccupancyRoom (s : State) : State :=
  if s.occ.list.length < Config.occupancyCap then s
  else
    let i := occupancyVictim s.occ.list
    match s.occ.list[i]? with
    | some e =>
      let s' := s.setOccupancy (s.occ.list.eraseIdx i)
      match e.stop with
      | .at t => holdRequest s' e.lane t
      | .open => s'
    | none => s

/-- R78, R83: an entry is entered last in the list, with eviction. -/
def enterOccupancy (s : State) (e : OccupancyEntry) : State :=
  let s' := makeOccupancyRoom s
  s'.setOccupancy (s'.occ.list ++ [e])

/-- R78, R79: the entry of a passage record: PASSAGE, or STALL with an open end. -/
def recordEntry (g : Working) (r : PassageRecord) : OccupancyEntry :=
  let w := zoneWindow g r.tRef r.pace.ticks
  match r.kind with
  | .normal => { code := r.code, lane := r.lane, kind := .passage, tRef := r.tRef, pace := r.pace, start := w.start,
                 stop := .at w.stop, link := none }
  | .stalled => { code := r.code, lane := r.lane, kind := .stall, tRef := r.tRef, pace := r.pace, start := w.start,
                  stop := .open, link := none }

/-- R80: the TARGET entry of a record in a target lane. -/
def targetEntry (g : Working) (r : PassageRecord) (target : Lane) (link : Option Lane) : OccupancyEntry :=
  let w := zoneWindow g r.tRef r.pace.ticks
  { code := r.code, lane := target, kind := .target, tRef := r.tRef, pace := r.pace, start := w.start,
    stop := .at w.stop, link := link }

/-- R79: the open STALL entry of a lane takes a new code. -/
def OccupancyEntry.recode (l : Lane) (c : CarCode) (e : OccupancyEntry) : OccupancyEntry :=
  if e.kind = .stall ∧ e.lane = l ∧ e.stop = .open then { e with code := c } else e

/-- R79: the open STALL entry of a lane takes its window end. -/
def OccupancyEntry.close (l : Lane) (t : Time) (e : OccupancyEntry) : OccupancyEntry :=
  if e.kind = .stall ∧ e.lane = l ∧ e.stop = .open then { e with stop := .at t } else e

/-- R79: a gate reports a new decoded code. -/
def occupancyCode (s : State) (l : Lane) (c : CarCode) : State := s.setOccupancy (s.occ.list.map (OccupancyEntry.recode l c))

/-- R79: a gate reports the end of its stall. -/
def occupancyStallEnd (s : State) (l : Lane) : State :=
  s.setOccupancy (s.occ.list.map (OccupancyEntry.close l (Time.plus s.now Config.stallTail)))

/-- R80: the grant link of a slot. -/
def linkedTo (l : Lane) (e : OccupancyEntry) : Bool := decide (e.link = some l)

/-- R80: the TARGET entry linked to a slot is removed. -/
def removeTarget (s : State) (l : Lane) : State := s.setOccupancy (s.occ.list.filter (fun e => !linkedTo l e))

/-- R80: the link to a slot is dropped, and the entry stays. -/
def dropLink (s : State) (l : Lane) : State :=
  s.setOccupancy (s.occ.list.map (fun e => if linkedTo l e then { e with link := none } else e))

/-- OCCUPANCY_EXPIRY (R81), taken when the entry's window end has arrived. -/
def occupancyExpiry (i : Nat) (s : State) : State :=
  match s.occ.list[i]? with
  | some e => if endArrived s.now e.stop then s.setOccupancy (s.occ.list.eraseIdx i) else s
  | none => s

/-- OCCUPANCY_EXPIRY (R81). -/
def execOccupancyExpiry (index : Nat) (s : State) : Result := .next (occupancyExpiry index s)

/-! ## The approach list (R85 to R90) -/

/-- R86: a record is entered in order of predicted arrival. -/
def enterApproachRecord (r : ApproachRecord) (rs : List ApproachRecord) : List ApproachRecord :=
  enterInOrder (fun y => Time.before r.arrival y.arrival) r rs

/-- R87: room for a record: the one that ends first is evicted and its lane held until that end. -/
def makeApproachRoom (s : State) : State :=
  if s.occ.approach.length < Config.approachCap then s
  else
    let i := earliest (fun a b : ApproachRecord => Time.before a.window.stop b.window.stop) s.occ.approach
    match s.occ.approach[i]? with
    | some r => holdRequest (s.setApproach (s.occ.approach.eraseIdx i)) r.lane r.window.stop
    | none => s

/-- R86: the record held for an identified code is removed; code-0 records stay. -/
def withoutCode (c : CarCode) (rs : List ApproachRecord) : List ApproachRecord :=
  rs.filter (fun r => !(decide (c ≠ 0) && decide (r.code = c)))

/-- R86: a record is placed: it replaces the one of its identified code, or is entered with eviction. -/
def enterApproach (s : State) (r : ApproachRecord) : State :=
  let s' := makeApproachRoom (s.setApproach (withoutCode r.code s.occ.approach))
  s'.setApproach (enterApproachRecord r s'.occ.approach)

/-- R86: the lane of the record a notice makes. -/
def approachLane (p : PassNotice) (o : Outcome) : Lane :=
  match o with
  | .yielded | .late | .aborted => p.laneIn
  | .notReady | .stalled | .straight | .kept | .noLane | .laneHeld | .blockedTarget | .bladeBusy | .tooClose
  | .following | .blind | .blockedDownstream | .shared | .swept | .taken => p.laneOut

/-- R86: the record a notice makes. -/
def approachRecord (g : Working) (p : PassNotice) (o : Outcome) (payloadStart : Time) : ApproachRecord :=
  let tUp := senderTime payloadStart p.age
  let pace := Pace.received p.pace
  { code := p.code, lane := approachLane p o, outcome := o, arrival := upArrival g tUp pace.ticks, pace := pace,
    window := upWindow g tUp pace.ticks, bladeTime := upBladeTime g tUp pace.ticks }

/-- R88, R89: the record that a passage record matches leaves the list. -/
def matchedApproach (g : Working) (r : PassageRecord) (rs : List ApproachRecord) : List ApproachRecord :=
  if r.code ≠ 0 then rs.filter (fun a => decide (a.code ≠ r.code))
  else rs.eraseP (fun a => decide (a.code = 0) && decide (a.lane = r.lane)
    && Time.atOrBefore a.arrival (zoneWindow g r.tRef r.pace.ticks).stop)

/-- R88, R89. -/
def matchArrival (s : State) (r : PassageRecord) : State := s.setApproach (matchedApproach s.working r s.occ.approach)

/-- R78, R79: the occupancy block takes a passage record: the match, the entry, the last close. -/
def takeRecord (s : State) (r : PassageRecord) : State :=
  (enterOccupancy (matchArrival s r) (recordEntry s.working r)).setLastClose r.lane (some r.handover)

/-- APPROACH_EXPIRY (R90), taken when the record's window end has arrived. -/
def approachExpiry (i : Nat) (s : State) : State :=
  match s.occ.approach[i]? with
  | some r => if arrived s.now r.window.stop then s.setApproach (s.occ.approach.eraseIdx i) else s
  | none => s

/-- APPROACH_EXPIRY (R90). -/
def execApproachExpiry (index : Nat) (s : State) : Result := .next (approachExpiry index s)

/-! ## Neighbour records (R91, R92) -/

/-- R91: a geometry whose values lie in their ranges. -/
def Geometry.ok (g : Geometry) : Bool := inRange 40 1023 g.ds && inRange 40 1023 g.dm && inRange 2 4 g.lanes

/-- R91: the geometry a good frame carries: a BEACON's. -/
def GoodFrame.geometry (f : GoodFrame) : Option Geometry :=
  if f.kind = .beacon then some (decodeBeacon (payloadWord 24 f.payload)) else none

/-- R91: a record after a good frame delivered now. -/
def NeighbourRecord.hear (r : NeighbourRecord) (now : Time) (f : GoodFrame) : NeighbourRecord :=
  if r.address = f.originator ∧ r.address ≠ 0 then
    { r with lastHeard := some now,
             geometry := match f.geometry with
               | some g => if g.ok then some g else r.geometry
               | none => r.geometry }
  else r

/-- R91, R153 step 1: a good frame refreshes the records of its originator. -/
def refreshNeighbours (s : State) (f : GoodFrame) : State :=
  { s with occ := { s.occ with up := s.occ.up.hear s.now f, down := s.occ.down.hear s.now f } }

/-- R92: an absent last-heard time takes the time of entry to SYNC. -/
def NeighbourRecord.enterSync (r : NeighbourRecord) (now : Time) : NeighbourRecord :=
  { r with lastHeard := some (r.lastHeard.getD now) }

/-- NEIGHBOUR_SILENCE (R92). A record is silent because its last-heard time + 15625 has arrived (`isSilent`); the record
holds no further field (R91), so the step changes nothing (log 16, DEDUCED). -/
def neighbourSilence (_side : Neighbour) (s : State) : State := s

/-- NEIGHBOUR_SILENCE (R92). -/
def execNeighbourSilence (side : Neighbour) (s : State) : Result := .next (neighbourSilence side s)

/-! ## Node states (R93) -/

/-- R93: entering HOLDUP empties the lists, the holds, the last closes and the last-heard times. -/
def occupancyHoldup (o : OccupancyBlock) : OccupancyBlock :=
  { o with list := [], holds := PerLane.const none, lastClose := PerLane.const none, approach := [],
           up := { o.up with lastHeard := none }, down := { o.down with lastHeard := none } }

/-- R80, R93: entering FAULT drops every grant link. -/
def occupancyFault (o : OccupancyBlock) : OccupancyBlock := { o with list := o.list.map (fun e => { e with link := none }) }

/-- R92, R93: entering SYNC. -/
def occupancySync (o : OccupancyBlock) (now : Time) : OccupancyBlock :=
  { o with up := o.up.enterSync now, down := o.down.enterSync now }

end Sys2Proof.Machine
end

