-- ==== Sys2Proof/Machine/Blades.lean ====
section
/-! DEFINITION. The blade drivers (09), with BLADE_THROW, BLADE_RELEASE, COOLING_END and OPEN_COIL. The presence test belongs to
LOAD (Supervisor.lean). -/

namespace Sys2Proof.Machine

/-- R136: the coil drive goes on and the blade is THROWN; readings are counted from this tick (R140). -/
def Blade.throw (b : Blade) (now : Time) : Blade := { b with state := .thrown, coil := true, drivenSince := some now }

/-- R137, R138, R139, R141: the blade stands down with its coil off and rests until `cooled`. -/
def Blade.standDown (b : Blade) (cooled : Time) : Blade :=
  { b with state := .cooling, throwAt := none, releaseAt := none, coolingEnd := some cooled, coil := false,
           drivenSince := none }

/-- R140: the blade of an open coil. -/
def Blade.failed (b : Blade) : Blade :=
  { b with state := .failed, throwAt := none, releaseAt := none, coolingEnd := none, coil := false, drivenSince := none }

/-- R135, R136: a REST blade is armed; it throws at once when its throw time has arrived in RUN. Only a blade in REST
can be armed (log 23, DESIGN CHOICE). -/
def armBlade (s : State) (l : Lane) (throwAt releaseAt : Time) : State :=
  let b := s.blades.get l
  if b.state = .rest then
    let armed := { b with state := .armed, throwAt := some throwAt, releaseAt := some releaseAt }
    s.setBlade l (if arrived s.now throwAt && decide (s.node = .run) then armed.throw s.now else armed)
  else s

/-- R139: an ARMED blade stands down at an abort. -/
def standDownBlade (s : State) (l : Lane) : State :=
  let b := s.blades.get l
  if b.state = .armed then s.setBlade l (b.standDown (Time.plus s.now Config.coolingTicks)) else s

/-- R141: the forced stand-down of a blade on entering HOLDUP or FAULT. -/
def Blade.forcedDown (b : Blade) (now : Time) : Blade :=
  match b.state with
  | .thrown | .armed => b.standDown (Time.plus now Config.coolingTicks)
  | .absent | .rest | .cooling | .failed => b

/-- R120: the slot of a lane is freed without a withdrawal or an abort: the link of its TARGET entry is dropped. -/
def freeSlot (s : State) (l : Lane) : State := (dropLink s l).setSlot l none

/-- BLADE_THROW (R136), taken when the throw time of an ARMED blade has arrived, in RUN. -/
def bladeThrow (l : Lane) (s : State) : State :=
  let b := s.blades.get l
  if b.state = .armed ∧ hasArrived s.now b.throwAt = true ∧ s.node = .run then s.setBlade l (b.throw s.now) else s

/-- BLADE_THROW (R136). -/
def execBladeThrow (lane : Lane) (s : State) : Result := .next (bladeThrow lane s)

/-- BLADE_RELEASE (R120, R137), taken when the release time of a THROWN blade has arrived. -/
def bladeRelease (l : Lane) (s : State) : State :=
  let b := s.blades.get l
  match b.releaseAt with
  | some t =>
    if b.state = .thrown ∧ arrived s.now t = true then
      freeSlot (s.setBlade l (b.standDown (Time.plus t Config.coolingTicks))) l
    else s
  | none => s

/-- BLADE_RELEASE (R137). -/
def execBladeRelease (lane : Lane) (s : State) : Result := .next (bladeRelease lane s)

/-- COOLING_END (R138), taken when a COOLING blade's cooling end has arrived; the end is kept. -/
def coolingEnd (l : Lane) (s : State) : State :=
  let b := s.blades.get l
  if b.state = .cooling ∧ hasArrived s.now b.coolingEnd = true then s.setBlade l { b with state := .rest } else s

/-- COOLING_END (R138). -/
def execCoolingEnd (lane : Lane) (s : State) : Result := .next (coolingEnd lane s)

/-- R140: the second of two absent readings falls at throw + 5 or later. -/
def readingsJudged (now : Time) (b : Blade) : Bool :=
  match b.drivenSince with
  | some t => arrived now (Time.plus t Config.openCoilTicks)
  | none => false

/-- OPEN_COIL (R120, R140): the current of a THROWN blade is read; two successive judged readings of absent are an
open coil. -/
def openCoil (l : Lane) (before now : Bool) (s : State) : State :=
  let b := s.blades.get l
  if b.state = .thrown then
    let s' : State := { s with pins := { s.pins with coilCurrent := s.pins.coilCurrent.set l now } }
    if readingsJudged s.now b && !before && !now then freeSlot (s'.setBlade l b.failed) l else s'
  else s

/-- OPEN_COIL (R140). -/
def execOpenCoil (lane : Lane) (before now : Bool) (s : State) : Result := .next (openCoil lane before now s)

end Sys2Proof.Machine
end

