-- ==== Sys2Proof/Machine/Grants.lean ====
section
/-! DEFINITION. The grant unit (08): commitment, rechecks, withdrawal, abort and the claim table, with GRANT_LATE and
CLAIM_EXPIRY. -/

namespace Sys2Proof.Machine

/-! ## Commitment (R119) -/

/-- R119: the grant of a slot is committed and its blade armed. -/
def commitGrant (s : State) (l : Lane) (g : Grant) : State :=
  armBlade (s.setSlot l (some { g with state := .committed, frame := none })) l g.throwAt g.releaseAt

/-- R119, R150: the complete send of a frame is reported to a slot; it commits only the PROVISIONAL slot whose TAKEN
frame it is. -/
def frameSent (s : State) (l : Lane) (id : Nat) : State :=
  match s.grants.slots.get l with
  | some g => if g.state = .provisional ∧ g.frame = some id then commitGrant s l g else s
  | none => s

/-! ## Ending a grant without a throw (R124 to R127) -/

/-- R127: the notice of a grant that ends. -/
def endNotice (s : State) (l : Lane) (g : Grant) (o : Outcome) : PassBody :=
  { code := g.code, laneIn := l, laneOut := l, outcome := o,
    pressed := match g.used with
      | .press n => if boundHandset s g.code = some g.handset then some n else none
      | .order _ => none
    order := orderField s g.code false, pace := g.pace, tRef := g.tRef,
    startOffset := startOffset s.working g.pace.ticks, endOffset := endOffset s.working g.pace.ticks }

/-- R124 step 4, R126 step 4: an order the grant used is given back. -/
def giveBack (s : State) (g : Grant) : State :=
  match g.used with
  | .press _ => s
  | .order d => restoreOrder s g.code d

/-- R124 steps 2 to 5, R126 steps 2 to 5: the TARGET entry goes, the slot is freed, the order is given back and the
notice is queued. -/
def endGrant (s : State) (l : Lane) (g : Grant) (o : Outcome) : State :=
  let s' := giveBack ((removeTarget s l).setSlot l none) g
  queuePass s' (endNotice s' l g o) (Time.plus g.tRef Config.passDeadline) (.grantUnit l)

/-- R124 step 1: the slot's TAKEN frame is removed from the queue. -/
def removeTaken (s : State) (g : Grant) : State :=
  match g.frame with
  | some id => removeFrame s id
  | none => s

/-- R124, R125: a PROVISIONAL grant is withdrawn as YIELDED or LATE. -/
def withdraw (s : State) (l : Lane) (o : Outcome) : State :=
  match s.grants.slots.get l with
  | some g => if g.state = .provisional then endGrant (removeTaken s g) l g o else s
  | none => s

/-- R126: a COMMITTED grant whose blade is ARMED is aborted. -/
def abort (s : State) (l : Lane) : State :=
  match s.grants.slots.get l with
  | some g =>
    if g.state = .committed ∧ (s.blades.get l).state = .armed then endGrant (standDownBlade s l) l g .aborted else s
  | none => s

/-- GRANT_LATE (R125), taken when the throw time of a PROVISIONAL slot has arrived. -/
def grantLate (l : Lane) (s : State) : State :=
  match s.grants.slots.get l with
  | some g => if arrived s.now g.throwAt then withdraw s l .late else s
  | none => s

/-- GRANT_LATE (R125). -/
def execGrantLate (lane : Lane) (s : State) : Result := .next (grantLate lane s)

/-! ## Rechecks (R121 to R123) -/

/-- R122: checks 12 to 15 taken again for a PROVISIONAL grant. -/
def provisionalConflict (s : State) (l : Lane) (g : Grant) : Bool :=
  followingConflict s l [g.code] ⟨g.throwAt, g.releaseAt⟩
    || targetConflict s g.target g.window (some l)
    || blindConflict s g.target s.now
    || downstreamConflict s g.target g.tRef g.pace.ticks

/-- R123: a record is of a car that cannot yield. -/
def ApproachRecord.cannotYield (r : ApproachRecord) : Bool :=
  decide (r.code = 0) || decide (r.outcome = .straight) || decide (r.outcome = .swept) || decide (r.outcome = .notReady)

/-- R123: a record conflicts with an armed grant. -/
def committedConflict (l : Lane) (g : Grant) (r : ApproachRecord) : Bool :=
  r.cannotYield && decide (r.code ≠ g.code)
    && ((decide (r.lane = l) && Window.contains ⟨g.throwAt, g.releaseAt⟩ r.bladeTime)
      || (decide (r.lane = g.target) && r.window.conflicts g.window))

/-- R121: one slot is rechecked, after a record (`some`) or a claim (`none`) has been entered. -/
def recheckSlot (r : Option ApproachRecord) (s : State) (l : Lane) : State :=
  match s.grants.slots.get l with
  | none => s
  | some g =>
    match g.state, r with
    | .provisional, _ => if provisionalConflict s l g then withdraw s l .yielded else s
    | .committed, some rec => if committedConflict l g rec then abort s l else s
    | .committed, none => s

/-- R121: every occupied slot is rechecked, in order of lane from 1 to N. -/
def recheck (s : State) (r : Option ApproachRecord) : State :=
  (Lane.all.filter (fun l => decide (l.num ≤ s.working.lanes))).foldl (recheckSlot r) s

/-! ## The claim table (R128 to R131) -/

/-- R129: a claim is entered in order of window start. -/
def enterClaimIn (c : Claim) (cs : List Claim) : List Claim :=
  enterInOrder (fun y => Time.before c.window.start y.window.start) c cs

/-- R131: room for a claim: the one that ends first is evicted and its lane held until that end. -/
def makeClaimRoom (s : State) : State :=
  if s.grants.claims.length < Config.claimCap then s
  else
    let i := earliest (fun a b : Claim => Time.before a.window.stop b.window.stop) s.grants.claims
    match s.grants.claims[i]? with
    | some c => holdRequest (s.setClaims (s.grants.claims.eraseIdx i)) c.lane c.window.stop
    | none => s

/-- R129, R130: the claim held for an identified code is removed; code-0 claims stay. -/
def claimsWithout (code : CarCode) (cs : List Claim) : List Claim :=
  cs.filter (fun c => !(decide (code ≠ 0) && decide (c.code = code)))

/-- R129: a claim is placed: it replaces the one of its identified code, or is entered with eviction. -/
def enterClaim (s : State) (c : Claim) : State :=
  let s' := makeClaimRoom (s.setClaims (claimsWithout c.code s.grants.claims))
  s'.setClaims (enterClaimIn c s'.grants.claims)

/-- R129: the claim of a notice. -/
def claimOf (originator : NodeAddr) (p : PassNotice) (payloadStart : Time) : Claim :=
  { originator := originator, code := p.code, lane := p.laneOut,
    window := claimWindow (senderTime payloadStart p.age) p.startOffset p.endOffset }

/-- R129, R130: a notice of the downstream neighbour at the claim table. -/
def claimNotice (s : State) (originator : NodeAddr) (p : PassNotice) (o : Outcome) (payloadStart : Time) : State :=
  match o with
  | .taken | .shared | .swept =>
    if p.laneOut.num ≤ s.working.lanes then recheck (enterClaim s (claimOf originator p payloadStart)) none else s
  | .yielded | .late | .aborted => s.setClaims (claimsWithout p.code s.grants.claims)
  | .notReady | .stalled | .straight | .kept | .noLane | .laneHeld | .blockedTarget | .bladeBusy | .tooClose
  | .following | .blind | .blockedDownstream => s

/-- R86: a notice of the upstream neighbour at the approach list, with its recheck. -/
def approachNotice (s : State) (p : PassNotice) (o : Outcome) (payloadStart : Time) : State :=
  let r := approachRecord s.working p o payloadStart
  if r.lane.num ≤ s.working.lanes then recheck (enterApproach s r) (some r) else s

/-- CLAIM_EXPIRY (R130), taken when the claim's window end has arrived. -/
def claimExpiry (i : Nat) (s : State) : State :=
  match s.grants.claims[i]? with
  | some c => if arrived s.now c.window.stop then s.setClaims (s.grants.claims.eraseIdx i) else s
  | none => s

/-- CLAIM_EXPIRY (R130). -/
def execClaimExpiry (index : Nat) (s : State) : Result := .next (claimExpiry index s)

end Sys2Proof.Machine
end

