-- ==== Sys2Proof/Machine/Handset.lean ====
section
/-! DEFINITION. The handset port (03): HANDSET_FRAME, HANDSET_STALE_REMOVAL, REQUEST_EXPIRY, GESTURE_LAPSE, and what the planner
and a received PASS ask of it. -/

namespace Sys2Proof.Machine

/-- R43, R44: the latched request of a handset is removed when its press count is the one consumed. -/
def consumePress (s : State) (h : HandsetAddr) (count : BitVec 4) : State :=
  s.updateHandset h (fun e =>
    match e.request with
    | some r => if r.count = count then { e with request := none } else e
    | none => e)

/-- R44: a received PASS notice consumes. -/
def passConsumes (s : State) (p : PassNotice) : State :=
  match p.pressed, boundHandset s p.code with
  | some count, some h => consumePress s h count
  | _, _ => s

/-! ## A frame (R36 to R41, R45, R46) -/

/-- R45: an entry takes the gesture of a frame heard now. -/
def HandsetEntry.takeGesture (e : HandsetEntry) (now : Time) (g : Gesture) : HandsetEntry :=
  { e with gesture := g, gestureTime := if g = .none then e.gestureTime else now, fresh := decide (g ≠ .none) }

/-- R38: the entry of a first sighting. -/
def HandsetFrame.firstEntry (f : HandsetFrame) (now : Time) : HandsetEntry :=
  { address := f.address, lastHeard := now, pressCount := f.pressCount, programCount := f.programCount,
    gesture := f.gesture, gestureTime := now, fresh := decide (f.gesture ≠ .none), resync := false, request := none }

/-- R38: an entry is evicted before another: heard longer ago, or as long ago with a lower address. -/
def evictedBefore (now : Time) (a b : HandsetEntry) : Bool :=
  decide (Time.diff b.lastHeard now < Time.diff a.lastHeard now)
    || (decide (Time.diff b.lastHeard now = Time.diff a.lastHeard now) && decide (a.address.toNat < b.address.toNat))

/-- R38: the entry a full table evicts: the unbound one heard longest ago. -/
def evictedHandset (s : State) : Option HandsetEntry :=
  let unbound := s.handsets.filter (fun e => !isBound s e.address)
  unbound[earliest (evictedBefore s.now) unbound]?

/-- R45: an entry is removed; the binding table is told when that ends a fresh gesture. -/
def removeHandset (s : State) (e : HandsetEntry) : State :=
  if e.gesturing then judgeLocal (s.dropHandset e.address) else s.dropHandset e.address

/-- R38: room for a first sighting (log 20, DEDUCED); none where a full table has no unbound entry (log 23, DESIGN CHOICE). -/
def makeHandsetRoom (s : State) : Option State :=
  if s.handsets.length < Config.handsetCap then some s else (evictedHandset s).map (removeHandset s)

/-- R38: a frame from an unknown address. -/
def firstSighting (s : State) (f : HandsetFrame) : State :=
  match makeHandsetRoom s with
  | some s' =>
    let e := f.firstEntry s.now
    let s'' : State := { s' with handsets := s'.handsets ++ [e] }
    if e.gesturing then judgeLocal s'' else s''
  | none => s

/-- R40 step 3, R41: a changed press count latches a request and is handed to the binding table. -/
def takePress (s : State) (f : HandsetFrame) (e : HandsetEntry) : State :=
  if f.pressCount = e.pressCount then s
  else pressTaken (s.updateHandset f.address (fun x =>
    { x with pressCount := f.pressCount, request := some { dir := f.pressDir, count := f.pressCount, latched := s.now } }))
    f.address

/-- R40 step 4, R46: a changed program count hands the program to the binding table. -/
def takeProgram (s : State) (f : HandsetFrame) (e : HandsetEntry) : State :=
  if f.programCount = e.programCount then s
  else programTaken (s.updateHandset f.address (fun x => { x with programCount := f.programCount }))
    f.address f.programDir f.programValue

/-- R40 steps 2 to 4: a frame's counts, recorded at a resynchronisation and acted on otherwise. -/
def takeCounts (s : State) (f : HandsetFrame) (e : HandsetEntry) : State :=
  if e.resync then
    s.updateHandset f.address (fun x =>
      { x with pressCount := f.pressCount, programCount := f.programCount, resync := false })
  else takeProgram (takePress s f e) f e

/-- R40 step 5, R45: a frame's gesture; the binding table is told when the fresh gesture begins, changes or ends. -/
def takeGesture (s : State) (f : HandsetFrame) (e : HandsetEntry) : State :=
  let s' := s.updateHandset f.address (fun x => x.takeGesture s.now f.gesture)
  if e.freshGesture = f.gesture then s' else judgeLocal s'

/-- R40: a frame from a known handset, whose entry was `e`. -/
def knownFrame (s : State) (f : HandsetFrame) (e : HandsetEntry) : State :=
  takeGesture (takeCounts (s.updateHandset f.address (fun x => { x with lastHeard := s.now })) f e) f e

/-- R38, R40: an accepted frame. -/
def acceptFrame (s : State) (f : HandsetFrame) : State :=
  match handsetEntry s f.address with
  | some e => knownFrame s f e
  | none => firstSighting s f

/-- R35: a run of `span` ticks that closes now began when the port was on. A run whose first character falls in the very tick
of the entry to SYNC is kept, whichever of the two came first in that tick: R35 leaves it open, and this is the model's
choice (log 14, DESIGN CHOICE). -/
def runHeardWhole (s : State) (span : Nat) : Bool :=
  match s.sup.cameOn with
  | some t => decide ((span : Int) ≤ Time.diff t s.now)
  | none => false

/-- R36: a run closes with those characters; it is discarded, or accepted as a frame. -/
def runCloses (s : State) (chars : List SerialChar) : State :=
  match handsetFrameOf chars with
  | some f => acceptFrame s f
  | none => s

/-- HANDSET_FRAME (R35, R36): the levels read on the handset line close a run that was heard whole. -/
def handsetFrame (levels : List Bool) (span : Nat) (s : State) : State :=
  match closedRun levels with
  | some r => if s.node.live && r.spans span && runHeardWhole s span then runCloses s r.chars else s
  | none => s

/-- HANDSET_FRAME (R40). -/
def execHandsetFrame (levels : List Bool) (span : Nat) (s : State) : Result := .next (handsetFrame levels span s)

/-! ## The timers of an entry (R39, R42, R45) -/

/-- HANDSET_STALE_REMOVAL (R39), taken while the port is on for an unbound entry unheard for 31250 ticks. -/
def handsetStaleRemoval (a : HandsetAddr) (s : State) : State :=
  match handsetEntry s a with
  | some e => if s.node.live && !isBound s a && isStale s.now e then removeHandset s e else s
  | none => s

/-- HANDSET_STALE_REMOVAL (R39). -/
def execHandsetStaleRemoval (addr : HandsetAddr) (s : State) : Result := .next (handsetStaleRemoval addr s)

/-- REQUEST_EXPIRY (R42), taken when the latch time plus the request hold has arrived. -/
def requestExpiry (a : HandsetAddr) (s : State) : State :=
  match latchedRequest s a with
  | some r =>
    if arrived s.now (Time.plus r.latched (requestHoldTicks s.working)) then
      s.updateHandset a (fun e => { e with request := none })
    else s
  | none => s

/-- REQUEST_EXPIRY (R42). -/
def execRequestExpiry (addr : HandsetAddr) (s : State) : Result := .next (requestExpiry addr s)

/-- GESTURE_LAPSE (R45), taken when a fresh gesture's time + 1563 has arrived; the binding table is told. -/
def gestureLapse (a : HandsetAddr) (s : State) : State :=
  match handsetEntry s a with
  | some e =>
    if e.gesturing && arrived s.now (Time.plus e.gestureTime Config.gestureTicks) then
      judgeLocal (s.updateHandset a (fun x => { x with fresh := false }))
    else s
  | none => s

/-- GESTURE_LAPSE (R45). -/
def execGestureLapse (addr : HandsetAddr) (s : State) : Result := .next (gestureLapse addr s)

/-! ## The port and the node states (R48) -/

/-- R48: entering HOLDUP or FAULT: requests and gestures go, the entries stay. -/
def HandsetEntry.hushed (e : HandsetEntry) : HandsetEntry := { e with gesture := .none, fresh := false, request := none }

/-- R48: the port goes off at HOLDUP or FAULT. -/
def portOff (s : State) : State := { s with handsets := s.handsets.map HandsetEntry.hushed }

/-- R48: the port comes on at a warm restart: every resync mark is set, and stale unbound entries go at once. -/
def portOn (s : State) : State :=
  let kept := s.handsets.filter (fun e => isBound s e.address || !isStale s.now e)
  { s with handsets := kept.map (fun e => { e with resync := true }) }

end Sys2Proof.Machine
end

