-- ==== Sys2Proof/Machine/Planner.lean ====
section
/-! DEFINITION. The change planner (07): one decision for one passage record, by the ladder of sixteen checks. -/

namespace Sys2Proof.Machine

/-- The request of a decision (R96): a latched press with its count, or the order, with its direction and the handset. -/
structure CarRequest where
  dir : Dir
  used : UsedRequest
deriving DecidableEq, Repr

/-- The working values of a decision (R95, R96). -/
structure Candidate where
  record : PassageRecord
  handset : Option HandsetAddr
  request : Option CarRequest
  window : Window
  bladeTime : Time
  hold : Window
deriving DecidableEq, Repr

/-- R72, R96: the car's request: the latched request of its handset, failing that its order. -/
def requestOf (s : State) (c : CarCode) : Option CarRequest :=
  match Car.ofCode c with
  | none => none
  | some car =>
    let b := s.bind.entries.get car
    match b.handset with
    | none => none
    | some h =>
      match latchedRequest s h with
      | some r => some { dir := r.dir, used := .press r.count }
      | none =>
        match b.standing with
        | .order d _ => some { dir := d, used := .order d }
        | .runOut _ | .empty => none

/-- R95, R96: the working values formed at the start of a decision. -/
def candidate (s : State) (r : PassageRecord) : Candidate :=
  { record := r, handset := boundHandset s r.code, request := requestOf s r.code,
    window := zoneWindow s.working r.tRef r.pace.ticks,
    bladeTime := bladeTime s.working r.tRef r.pace.ticks,
    hold := holdWindow s.working r.tRef r.pace.ticks }

/-- R96: the car requests a direction. -/
def Candidate.requests (c : Candidate) (d : Dir) : Bool :=
  match c.request with
  | some r => decide (r.dir = d)
  | none => false

/-- An outcome with the lane the car leaves in. -/
structure Decided where
  outcome : Outcome
  laneOut : Lane
deriving DecidableEq, Repr

/-! ## Check 3 (R99 to R102) -/

/-- R102: the sharing checks, against the grant that holds `hold`. -/
def mayShare (s : State) (c : Candidate) (target : Lane) (grantCode : Option CarCode) (hold : Window) : Bool :=
  let l := c.record.lane
  !isHeld s l && !isHeld s target && !gateConflict s target
    && !followingConflict s l (c.record.code :: grantCode.toList) hold
    && !targetConflict s target c.window (some l)
    && !blindConflict s target c.record.handover

/-- What check 3 finds (R98 to R101): nothing, or a blade at work with its hold, its direction and its target lane. -/
inductive BladeMet where
  | clear
  | thrown (d : Dir) (target : Lane)
  | armed (d : Dir) (target : Lane) (hold : Window)
  | pending (d : Dir) (target : Lane) (hold : Window)
deriving DecidableEq, Repr

/-- R99, R100, R101: the blade or pending grant of lane in that the car's blade time meets. -/
def bladeMet (s : State) (c : Candidate) : BladeMet :=
  let l := c.record.lane
  let b := s.blades.get l
  match s.working.sides.get l, bladeTarget s l with
  | some d, some target =>
    match b.state, b.throwAt, b.releaseAt with
    | .thrown, some t, some r => if Window.contains ⟨t, r⟩ c.bladeTime then .thrown d target else .clear
    | .armed, some t, some r => if Window.contains ⟨t, r⟩ c.bladeTime then .armed d target ⟨t, r⟩ else .clear
    | .rest, _, _ =>
      match s.grants.slots.get l with
      | some g =>
        if g.state = .provisional ∧ Window.contains ⟨g.throwAt, g.releaseAt⟩ c.bladeTime = true
        then .pending d target ⟨g.throwAt, g.releaseAt⟩ else .clear
      | none => .clear
    | _, _, _ => .clear
  | _, _ => .clear

/-- The car code of the grant in the slot of a lane. -/
def grantCode (s : State) (l : Lane) : Option CarCode := (s.grants.slots.get l).map (·.code)

/-- What check 3 gives: an outcome, or the state to go on with and whether a provisional grant was withdrawn. -/
inductive Check3 where
  | decided (d : Decided)
  | goOn (s : State) (withdrawn : Bool)

/-- Check 3 (R99, R100, R101). -/
def check3 (s : State) (c : Candidate) : Check3 :=
  let l := c.record.lane
  match bladeMet s c with
  | .clear => .goOn s false
  | .thrown d target =>
    .decided { outcome := if c.requests d then .shared else .swept, laneOut := target }
  | .armed d target hold =>
    if c.requests d && mayShare s c target (grantCode s l) hold then .decided { outcome := .shared, laneOut := target }
    else .goOn (abort s l) false
  | .pending d target hold =>
    if c.requests d && mayShare s c target (grantCode s l) hold then .decided { outcome := .shared, laneOut := target }
    else .goOn (withdraw s l .yielded) true

/-! ## Checks 4 to 16 (R103 to R114) -/

/-- Checks 8 to 16 (R106 to R114) for a car whose request is for a target lane its blade can carry it to. -/
def refusals (s : State) (c : Candidate) (target : Lane) (withdrawn : Bool) : Outcome :=
  let l := c.record.lane
  let r := c.record
  if isHeld s l || isHeld s target then .laneHeld
  else if gateConflict s target then .blockedTarget
  else if bladeBusy s l c.hold.start withdrawn then .bladeBusy
  else if Time.before c.hold.start (Time.plus r.handover Config.throwMargin) then .tooClose
  else if followingConflict s l [r.code] c.hold then .following
  else if targetConflict s target c.window none then .blockedTarget
  else if blindConflict s target r.handover then .blind
  else if downstreamConflict s target r.tRef r.pace.ticks then .blockedDownstream
  else .taken

/-- R105: the blade of a lane can carry a car in a direction. -/
def bladeServes (s : State) (l : Lane) (d : Dir) : Bool :=
  let b := s.blades.get l
  decide (b.state ≠ .absent) && decide (b.state ≠ .failed) && decide (s.working.sides.get l = some d)

/-- Checks 4 to 16. -/
def laterChecks (s : State) (c : Candidate) (withdrawn : Bool) : Decided :=
  let l := c.record.lane
  match c.handset, c.request with
  | some _, some q =>
    match Lane.besideWithin s.working.lanes l q.dir with
    | none => { outcome := .noLane, laneOut := l }
    | some target =>
      if bladeServes s l q.dir then
        match refusals s c target withdrawn with
        | .taken => { outcome := .taken, laneOut := target }
        | o => { outcome := o, laneOut := l }
      else { outcome := .kept, laneOut := l }
  | _, _ => { outcome := .straight, laneOut := l }

/-- The ladder (R94, R97 to R114): the outcome, and the state after any grant action of check 3. -/
def ladder (s : State) (c : Candidate) : State × Decided :=
  let l := c.record.lane
  if s.node = .sync then (s, { outcome := .notReady, laneOut := l })
  else if c.record.kind = .stalled then (s, { outcome := .stalled, laneOut := l })
  else match check3 s c with
    | .decided d => (s, d)
    | .goOn s' w => (s', laterChecks s' c w)

/-! ## After the outcome (R115, R116, R118) -/

/-- R115: an outcome consumes a latched request. -/
def Outcome.consumes : Outcome → Bool
  | .noLane | .laneHeld | .blockedTarget | .bladeBusy | .tooClose | .following | .blind | .blockedDownstream
  | .taken | .shared | .swept => true
  | .notReady | .stalled | .straight | .kept | .yielded | .late | .aborted => false

/-- R73: an outcome counts the order down. -/
def Outcome.counts : Outcome → Bool
  | .taken | .shared => true
  | .notReady | .stalled | .straight | .kept | .noLane | .laneHeld | .blockedTarget | .bladeBusy | .tooClose
  | .following | .blind | .blockedDownstream | .swept | .yielded | .late | .aborted => false

/-- R115 step 2: the press count that the decision consumes. -/
def consumed (c : Candidate) (o : Outcome) : Option (BitVec 4) :=
  match c.request with
  | some { used := .press n, .. } => if o.consumes then some n else none
  | _ => none

/-- R115 step 3: the decision counts the order down. -/
def countsDown (c : Candidate) (o : Outcome) : Bool :=
  match c.request with
  | some { used := .order _, .. } => o.counts
  | _ => false

/-- R115 step 2: the port is asked to consume. -/
def settleRequest (s : State) (c : Candidate) (o : Outcome) : State :=
  match consumed c o, c.handset with
  | some n, some h => consumePress s h n
  | _, _ => s

/-- R115 step 3: the binding table counts the order down. -/
def settleOrder (s : State) (c : Candidate) (o : Outcome) : State :=
  match Car.ofCode c.record.code with
  | some car => if countsDown c o then updateStanding s car Standing.countDown else s
  | none => s

/-- R115 step 4: the TARGET entry of a SHARED, SWEPT or TAKEN car. -/
def settleTarget (s : State) (c : Candidate) (d : Decided) : State :=
  match d.outcome with
  | .shared | .swept => enterOccupancy s (targetEntry s.working c.record d.laneOut none)
  | .taken => enterOccupancy s (targetEntry s.working c.record d.laneOut (some c.record.lane))
  | .notReady | .stalled | .straight | .kept | .noLane | .laneHeld | .blockedTarget | .bladeBusy | .tooClose
  | .following | .blind | .blockedDownstream | .yielded | .late | .aborted => s

/-- R116, R118: the notice of a decision, the order field as it stands at its end. -/
def decisionNotice (s : State) (c : Candidate) (d : Decided) : PassBody :=
  let r := c.record
  { code := r.code, laneIn := r.lane, laneOut := d.laneOut, outcome := d.outcome, pressed := consumed c d.outcome,
    order := orderField s r.code (countsDown c d.outcome), pace := r.pace, tRef := r.tRef,
    startOffset := startOffset s.working r.pace.ticks, endOffset := endOffset s.working r.pace.ticks }

/-- R114, R117, R118: the grant of a TAKEN decision, its TAKEN frame being the next one handed in. -/
def newGrant (s : State) (c : Candidate) (target : Lane) : Option Grant :=
  match c.handset, c.request with
  | some h, some q =>
    some { state := .provisional, code := c.record.code, handset := h, used := q.used, target := target,
           tRef := c.record.tRef, pace := c.record.pace, throwAt := c.hold.start, releaseAt := c.hold.stop,
           window := c.window, frame := some s.line.nextId }
  | _, _ => none

/-- R115 step 5: the notice: for TAKEN the slot is filled and its TAKEN frame queued with the throw time as deadline
(R118); for every other outcome one PASS with deadline t_ref + 3125 (R116). -/
def settleNotice (s : State) (c : Candidate) (d : Decided) : State :=
  if d.outcome = .taken then
    queuePass (s.setSlot c.record.lane (newGrant s c d.laneOut)) (decisionNotice s c d) c.hold.start
      (.grantUnit c.record.lane)
  else
    queuePass s (decisionNotice s c d) (Time.plus c.record.tRef Config.passDeadline) .planner

/-- R115: the effects of an outcome in their order. -/
def settle (s : State) (c : Candidate) (d : Decided) : State :=
  settleNotice (settleTarget (settleOrder (settleRequest s c d.outcome) c d.outcome) c d) c d

/-- R94: one decision for one passage record. -/
def decideRecord (s : State) (r : PassageRecord) : State :=
  let c := candidate s r
  settle (ladder s c).1 c (ladder s c).2

/-- R29: a record handed on: to the occupancy block, and in SYNC and RUN then to the planner. -/
def handOver (s : State) (r : PassageRecord) : State :=
  if s.node.live then decideRecord (takeRecord s r) r
  else if s.node = .fault then takeRecord s r
  else s

end Sys2Proof.Machine
end

