-- ==== Sys2Proof/Machine/Gates.lean ====
section
/-! DEFINITION. The lane gates (02): sampling, the code decoder, passages and stalls, with LEVEL_SETTLED, IR_EDGE, PASSAGE_CLOSE,
STALL_DECLARATION and STALL_END. -/

namespace Sys2Proof.Machine

/-! ## The decoder (R20, R21) -/

/-- R21: the decoder at a falling edge, with the eight bits of a frame that this mark completes. A mark met where a
space is expected drops the frame; edges alternate, so none is (log 23, DESIGN CHOICE). -/
def Decoder.mark (d : Decoder) (c : MarkClass) : Decoder × Option (List Bool) :=
  match c, d with
  | .sync, _ => (.frame true [], none)
  | .short, .frame false bits => if bits.length = 7 then (.hunt, some (bits ++ [false])) else (.frame true (bits ++ [false]), none)
  | .long, .frame false bits => if bits.length = 7 then (.hunt, some (bits ++ [true])) else (.frame true (bits ++ [true]), none)
  | _, _ => (.hunt, none)

/-- R21: the decoder at a rising edge. -/
def Decoder.space (d : Decoder) (ticks : Int) : Decoder :=
  match d with
  | .frame true bits => if spaceInClass ticks then .frame false bits else .hunt
  | .frame false _ | .hunt => .hunt

/-- R20, R21: an edge to `lit` after an interval: a rising edge ends a space, a falling edge a mark. -/
def Decoder.edge (d : Decoder) (lit : Bool) (ticks : Int) : Decoder × Option (List Bool) :=
  if lit then (d.space ticks, none) else d.mark (classOfMark ticks)

/-- R22: the code of the frame an edge completes, if it completes a valid one. -/
def frameCode (bits : Option (List Bool)) : Option CarCode := bits.bind validCode

/-! ## Codes (R23, R27) -/

/-- R23: the open passage after a valid frame. -/
def Passage.read (p : Passage) (c : CarCode) : Passage :=
  match p.code with
  | .absent => { p with code := .read c, frames := 1 }
  | .read d => if c = d then { p with frames := min 255 (p.frames + 1) } else { p with code := .conflicting, frames := 0 }
  | .conflicting => { p with frames := 0 }

/-- R27: the stall code after a valid frame. -/
def StallCode.read (sc : Option StallCode) (c : CarCode) : StallCode :=
  match sc with
  | none => { code := c, frames := 1 }
  | some x => if x.code = c then { x with frames := min 255 (x.frames + 1) } else { code := c, frames := 1 }

/-- R27: the decoded code takes a stall code whose frames seen have reached 2. -/
def nextDecoded (old : Option CarCode) (sc : StallCode) : Option CarCode := if sc.frames = 2 then some sc.code else old

/-- R25: the code a record carries. -/
def PassageCode.reported : PassageCode → CarCode
  | .read c => c
  | .absent | .conflicting => 0

/-- R26: the stall code taken from a passage. -/
def Passage.stallCode (p : Passage) : Option StallCode :=
  match p.code with
  | .read c => some { code := c, frames := p.frames }
  | .absent | .conflicting => none

/-- R27: the decoded code at the declaration. -/
def Passage.decodedAtStall (p : Passage) : Option CarCode :=
  match p.stallCode with
  | some sc => if 2 ≤ sc.frames then some sc.code else none
  | none => none

/-- R27: the occupancy block and the binding table are told of a new decoded code. -/
def reportCode (s : State) (l : Lane) (c : CarCode) : State := codeReported (occupancyCode s l c) l c

/-! ## Edges (R19, R23, R24, R27) -/

/-- R24: the gate state after an edge that opens a passage. The opening edge ends no interval (log 12, DEDUCED). -/
def Gate.opened (g : Gate) (now : Time) : Gate :=
  { g with state := .open { first := now, last := now, code := .absent, frames := 0 }, decoder := .hunt, gap := 0 }

/-- R23, R24, R27: the gate after an accepted edge to `lit` at `now`, its level already changed. -/
def Gate.edge (g : Gate) (now : Time) (lit : Bool) : Gate :=
  match g.state with
  | .idle => g.opened now
  | .open p =>
    let r := g.decoder.edge lit (Time.diff p.last now)
    let p' := { p with last := now }
    { g with decoder := r.1, gap := 0,
             state := .open (match frameCode r.2 with | some c => p'.read c | none => p') }
  | .stall p sc decoded =>
    let r := g.decoder.edge lit (Time.diff p.last now)
    let p' := { p with last := now }
    { g with decoder := r.1, gap := 0,
             state := match frameCode r.2 with
               | some c => let x := StallCode.read sc c; .stall p' (some x) (nextDecoded decoded x)
               | none => .stall p' sc decoded }

/-- R27: a change of the decoded code of a gate is reported. -/
def reportChange (s : State) (l : Lane) (old : Option CarCode) : State :=
  match (s.gates.get l).codedStall with
  | some c => if old = some c then s else reportCode s l c
  | none => s

/-- R59: the gate an edge is read with: where a run's next notice began blanking in this tick, its decoder stands as before
that notice (log 36, DEDUCED). -/
def Gate.unblanked (g : Gate) : Gate := if g.blanking.isSome then { g with decoder := g.dropped.getD g.decoder } else g

/-- R33: the gate after an edge, its decoder again in HUNT where it is blanking. -/
def Gate.reblanked (g : Gate) : Gate := if g.blanking.isSome then { g with decoder := .hunt, dropped := none } else g

/-- R19, R23, R24, R27: the gate after an edge to `lit`. -/
def Gate.accept (g : Gate) (now : Time) (lit : Bool) : Gate :=
  let read : Gate := { g.unblanked with level := some lit, previous := some lit }
  (read.edge now lit).reblanked

/-- R59: in the tick in which a run's next notice began blanking, an edge that changes the decoded code to another car's than
the notice's is taken after it. R33 accepts no other edge from that tick on (log 36, DEDUCED). -/
def Gate.changesCode (g : Gate) (now : Time) (lit : Bool) : Bool :=
  match g.dropped, g.sending, (g.accept now lit).codedStall with
  | some _, some n, some c => decide (g.codedStall ≠ some c) && decide (n.notice.code ≠ c)
  | _, _, _ => false

/-- R19: an accepted edge at a gate. -/
def acceptEdge (s : State) (l : Lane) (lit : Bool) : State :=
  let g := s.gates.get l
  reportChange (s.setGate l (g.accept s.now lit)) l g.codedStall

/-- R19: two samples that agree on a level other than the accepted one. -/
def isEdge (g : Gate) (first second : Bool) : Bool :=
  match g.level with
  | some b => (first == second) && (second != b)
  | none => false

/-- IR_EDGE (R19, R33): a working gate that is not blanking takes two successive samples; anything but an edge leaves only
the previous sample (log 11, DESIGN CHOICE). A blanking gate takes none, but for the code change of R59. -/
def irEdge (l : Lane) (first second : Bool) (s : State) : State :=
  let g := s.gates.get l
  if gateWorks s l then
    if g.blanking.isSome then
      if isEdge g first second && g.changesCode s.now second then acceptEdge s l second else s
    else if isEdge g first second then acceptEdge s l second
    else s.setGate l { g with previous := some second }
  else s

/-- IR_EDGE (R19). -/
def execIrEdge (lane : Lane) (first second : Bool) (s : State) : Result := .next (irEdge lane first second s)

/-- LEVEL_SETTLED (R18): the first two successive samples that agree settle the accepted level. -/
def levelSettled (l : Lane) (first second : Bool) (s : State) : State :=
  let g := s.gates.get l
  if gateWorks s l && g.level.isNone then
    s.setGate l { g with previous := some second, level := if first = second then some second else none }
  else s

/-- LEVEL_SETTLED (R18). -/
def execLevelSettled (lane : Lane) (first second : Bool) (s : State) : Result := .next (levelSettled lane first second s)

/-! ## Passages and stalls (R24 to R28) -/

/-- R24: the dwell of a passage. -/
def Passage.dwell (p : Passage) : Nat := (Time.diff p.first p.last).toNat

/-- R25: the NORMAL record of a passage that closes at `now`. -/
def normalRecord (g : Working) (now : Time) (l : Lane) (p : Passage) : PassageRecord :=
  { lane := l, code := p.code.reported, tFirst := p.first, tRef := p.last, dwell := p.dwell,
    pace := Pace.ofDwell g.w p.dwell, kind := .normal, handover := now }

/-- R25: the STALLED record of a passage declared a stall at `now`. -/
def stalledRecord (now : Time) (l : Lane) (p : Passage) : PassageRecord :=
  { lane := l, code := p.code.reported, tFirst := p.first, tRef := now, dwell := Config.stallTicks,
    pace := Pace.stalled, kind := .stalled, handover := now }

/-- R24, R28: the gate becomes IDLE and its decoder returns to HUNT. -/
def Gate.idled (g : Gate) : Gate := { g with state := .idle, decoder := .hunt }

/-- PASSAGE_CLOSE (R24), taken in OPEN when 24 ticks have passed since the last edge. A discard returns the decoder to HUNT too
(log 40, DESIGN CHOICE: R24 says it of a NORMAL closing only). -/
def passageClose (l : Lane) (s : State) : State :=
  let g := s.gates.get l
  match g.state with
  | .open p =>
    if Config.gapTicks ≤ g.gap then
      let s' := s.setGate l g.idled
      if p.dwell < Config.leastDwell then s' else handOver s' (normalRecord s.working s.now l p)
    else s
  | .idle | .stall .. => s

/-- PASSAGE_CLOSE (R24). -/
def execPassageClose (lane : Lane) (s : State) : Result := .next (passageClose lane s)

/-- R26: the gate at the declaration of a stall. -/
def Gate.stalled (g : Gate) (p : Passage) : Gate := { g with state := .stall p p.stallCode p.decodedAtStall }

/-- STALL_DECLARATION (R26), taken in OPEN when the span from the first edge has reached 8192 ticks: the record is handed
on, and then the decoded code is told (log 19, DEDUCED). -/
def stallDeclaration (l : Lane) (s : State) : State :=
  let g := s.gates.get l
  match g.state with
  | .open p =>
    if arrived s.now (Time.plus p.first Config.stallTicks) then
      reportChange (handOver (s.setGate l (g.stalled p)) (stalledRecord s.now l p)) l none
    else s
  | .idle | .stall .. => s

/-- STALL_DECLARATION (R26). -/
def execStallDeclaration (lane : Lane) (s : State) : Result := .next (stallDeclaration lane s)

/-- STALL_END (R28), taken in STALL when 24 ticks outside blanking have passed without an edge: the emitter stops (R34),
and the occupancy block and the binding table are told. -/
def stallEnd (l : Lane) (s : State) : State :=
  let g := s.gates.get l
  if g.isStalled && decide (Config.gapTicks ≤ g.gap) then
    stallEndReported (occupancyStallEnd (s.setGate l g.idled.stopNotice) l) l
  else s

/-- STALL_END (R28). -/
def execStallEnd (lane : Lane) (s : State) : Result := .next (stallEnd lane s)

end Sys2Proof.Machine
end

