-- ==== Sys2Proof/Machine/Supervisor.lean ====
section
/-! DEFINITION. The node supervisor (11): the node states and their entries, LOAD, power and hold-up, the reset and heat inputs,
the binding save (04) and the configuration write. -/

namespace Sys2Proof.Machine

/-! ## Work that is cut (R66, R67, R166) -/

/-- R166: a configuration write in flight stops, its mark WRITING; what the bytes then hold is a free value (log 8, DESIGN CHOICE). -/
def cutWrite (s : State) : State :=
  match s.sup.write with
  | some _ =>
    { s with nv := { s.nv with block := { fields := Config.cutFields s.draws, check := Config.cutCheck s.draws } },
             sup := { s.sup with write := none }, draws := s.draws + 1 }
  | none => s

/-- R67: a binding save in flight stops, its mark INVALID; what the records then hold is a free value (log 8, DESIGN CHOICE). -/
def cutSave (s : State) : State :=
  match s.sup.save with
  | some _ =>
    { s with nv := { s.nv with records := CodeTable.ofFn (Config.cutRecord s.draws) },
             sup := { s.sup with save := none }, draws := s.draws + 1 }
  | none => s

/-! ## Entries to the node states (R159) -/

/-- R160: the node goes to OFF; work under way stops, and only the nonvolatile store is kept. -/
def goOff (s : State) : State :=
  let c := cutSave (cutWrite s)
  State.offWith c.nv c.draws c.line.nextId c.pending

/-- R160: a track-power sense that is absent on entry to LOAD takes the node to OFF in that event. In HOLDUP with the power-return
debounce running the sense reads present, and a reset then stays in LOAD: R169 says that track power is absent there and the
node goes to OFF, and following the sense is the model's choice (log 39, DESIGN CHOICE). -/
def powerChecked (s : State) : State := if s.pins.trackPower then s else goOff s

/-- R161, R171: LOAD's work from now: the read, or the wait for the reset input's release. -/
def loadStart (s : State) : LoadWork := if s.pins.resetHeld then .heldInReset else .reading 0

/-- R1, R30, R48, R62, R68, R93, R132, R142, R143, R159, R171: the blocks on entry to LOAD. The binding entries stand
until the read restores them (log 7, DEDUCED), the blades stand ABSENT until their test (log 6, DESIGN CHOICE), and the
setup address keeps its former value until the block is judged (log 38, DESIGN CHOICE). -/
def loadEntered (s : State) : State :=
  { s with
    now := 0
    node := .load
    sup := { s.sup with nvBusy := !s.pins.resetHeld, cameOn := none, debounce := none, heatReleased := none,
                        load := loadStart s, save := none, write := none }
    gates := PerLane.const Gate.off
    handsets := []
    bind := { s.bind with runs := PerLane.const none, cursor := none }
    occ := OccupancyBlock.empty s.occ.up.address s.occ.down.address
    grants := GrantUnit.empty
    blades := PerLane.const Blade.absent
    line := LineController.silent s.line.nextId }

/-- The node enters LOAD (R161, R171). -/
def enterLoad (s : State) : State := powerChecked (loadEntered (cutSave (cutWrite s)))

/-- R18, R92, R143, R157, R167: the blocks on entry to SYNC, before the JOIN. -/
def syncEntered (s : State) : State :=
  { s with
    node := .sync
    sup := { s.sup with cameOn := some s.now, debounce := none, load := .idle }
    gates := PerLane.const Gate.off
    occ := occupancySync s.occ s.now
    line := { LineController.silent s.line.nextId with beacon := some s.now } }

/-- R167: the node enters SYNC: the blocks come on, the port with its resync marks (R48), and a JOIN is handed in. -/
def enterSync (s : State) : State := queueJoin (portOn (syncEntered s))

/-- R161: the node enters SETUP. -/
def enterSetup (s : State) : State :=
  { s with node := .setup, sup := { s.sup with load := .idle }, line := LineController.silent s.line.nextId }

/-- R65, R66: a save begins when the unsaved mark is set. -/
def startSave (s : State) : State :=
  if s.bind.unsaved then
    { s with nv := { s.nv with saveMark := 0 }, sup := { s.sup with nvBusy := true, save := some s.now } }
  else s

/-- R76: an entry without its order or run-out mark. -/
def Binding.orderless (b : Binding) : Binding := { b with standing := .empty }

/-- R30, R48, R59, R63, R76, R93, R132, R141, R143, R168: the blocks on entry to HOLDUP. -/
def holdupEntered (s : State) : State :=
  { s with
    node := .holdup
    sup := { s.sup with cameOn := none, debounce := none }
    gates := PerLane.const Gate.off
    handsets := s.handsets.map HandsetEntry.hushed
    bind := { s.bind with entries := s.bind.entries.map Binding.orderless, runs := PerLane.const none, cursor := none }
    occ := occupancyHoldup s.occ
    grants := GrantUnit.empty
    blades := s.blades.map (fun b => b.forcedDown s.now)
    line := LineController.silent s.line.nextId }

/-- R168: the node enters HOLDUP. -/
def enterHoldup (s : State) : State := startSave (holdupEntered s)

/-- R143: an attempt under way stops; a frame in reception is read on. -/
def SendStatus.stopped : SendStatus → SendStatus
  | .sending _ => .idle
  | .idle => .idle
  | .hearing r => .hearing r
  | .lost r => .lost r
  | .faulted r => .faulted r

/-- R30, R48, R59, R63, R80, R132, R141, R143, R170: the node enters FAULT. -/
def enterFault (s : State) : State :=
  { s with
    node := .fault
    sup := { s.sup with cameOn := none }
    gates := s.gates.map Gate.stopNotice
    handsets := s.handsets.map HandsetEntry.hushed
    bind := { s.bind with runs := PerLane.const none, cursor := none }
    occ := occupancyFault s.occ
    grants := GrantUnit.empty
    blades := s.blades.map (fun b => b.forcedDown s.now)
    line := { s.line with queue := [], send := s.line.send.stopped, beacon := none } }

/-! ## LOAD (R134, R161) -/

/-- POWER_ON (R160), taken in OFF: the supply has risen, with the reset input held or not. -/
def powerOn (resetHeld : Bool) (s : State) : State :=
  if s.node = .off then enterLoad { s with pins := { s.pins with trackPower := true, resetHeld := resetHeld } } else s

/-- POWER_ON (R160). -/
def execPowerOn (resetHeld : Bool) (s : State) : Result := .next (powerOn resetHeld s)

/-- R161 step 4: the strap is read and the node leaves LOAD; each neighbour record takes its configured address (R93). -/
def leaveLoad (s : State) (strapHeld valid : Bool) : State :=
  let s' : State := { s with
    pins := { s.pins with strapHeld := strapHeld }
    occ := { s.occ with up := { s.occ.up with address := s.working.upstream },
                        down := { s.occ.down with address := s.working.downstream } } }
  if strapHeld || !valid then enterSetup s' else enterSync s'

/-- R68: the binding entries that the read restores. -/
def restored (nv : Nv) : CodeTable Binding :=
  if nv.saveMark = 1 then restoreEntries nv.records else CodeTable.const Binding.fresh

/-- R161 step 1 at its end: the block image and the binding entries are read, and the NV busy flag is cleared. The unsaved mark
is cleared here: R49 has it at the end of each LOAD, R68 at each entry (log 38, DESIGN CHOICE). -/
def readDone (s : State) : State :=
  { s with
    sup := { s.sup with mirror := { s.sup.mirror with image := s.nv.block }, nvBusy := false }
    bind := { entries := restored s.nv, unsaved := false, runs := PerLane.const none, cursor := none } }

/-- R161 step 2: the working values and the setup address of a judged image. -/
def judged (s : State) (valid : Bool) : State :=
  let w := (readFields s.sup.mirror.image.fields).working
  if valid then
    { s with sup := { s.sup with mirror := { s.sup.mirror with working := w }, setupAddress := w.address } }
  else { s with sup := { s.sup with setupAddress := 0 } }

/-- R134: the presence pulse of a lane begins. -/
def startPulse (s : State) (l : Lane) : State :=
  { (s.setBlade l { Blade.absent with coil := true }) with sup := { s.sup with load := .pulse l s.now } }

/-- R161 steps 1 to 4 at the end of the read: the image is judged, and the first pulse begins, or LOAD is left. -/
def finishRead (strapHeld : Bool) (s : State) : State :=
  let valid := s.nv.block.valid s.nv.writeMark
  let s' := judged (readDone s) valid
  match if valid then nextTested s'.working 0 else none with
  | some l => startPulse s' l
  | none => leaveLoad s' strapHeld valid

/-- LOAD_READ_COMPLETE (R161), taken in LOAD 469 ticks after the read began. -/
def loadReadComplete (strapHeld : Bool) (s : State) : State :=
  match s.sup.load with
  | .reading t =>
    if s.node = .load ∧ arrived s.now (Time.plus t Config.readTicks) = true then finishRead strapHeld s else s
  | .idle | .heldInReset | .pulse .. | .rest .. => s

/-- LOAD_READ_COMPLETE (R161). -/
def execLoadReadComplete (strapHeld : Bool) (s : State) : Result := .next (loadReadComplete strapHeld s)

/-- R134: the blade of a pulse that ends, its coil off. -/
def testedBlade (present : Bool) : Blade := { Blade.absent with state := if present then .rest else .absent }

/-- R134: a pulse of a lane ends; the rest before the next one begins, or the test is complete and LOAD is left. -/
def finishPulse (l : Lane) (present strapHeld : Bool) (s : State) : State :=
  let s' : State := { (s.setBlade l (testedBlade present)) with
    pins := { s.pins with coilCurrent := s.pins.coilCurrent.set l present } }
  match nextTested s.working l.num with
  | some m => { s' with sup := { s'.sup with load := .rest m s.now } }
  | none => leaveLoad s' strapHeld true

/-- COIL_PULSE_END (R134), taken 8 ticks after the pulse began. -/
def coilPulseEnd (present strapHeld : Bool) (s : State) : State :=
  match s.sup.load with
  | .pulse l t =>
    if s.node = .load ∧ arrived s.now (Time.plus t Config.pulseTicks) = true then finishPulse l present strapHeld s else s
  | .idle | .heldInReset | .reading _ | .rest .. => s

/-- COIL_PULSE_END (R134). -/
def execCoilPulseEnd (currentPresent strapHeld : Bool) (s : State) : Result := .next (coilPulseEnd currentPresent strapHeld s)

/-- COIL_PULSE_START (R134), taken 8 ticks after the last pulse ended. -/
def coilPulseStart (s : State) : State :=
  match s.sup.load with
  | .rest l t =>
    if s.node = .load ∧ arrived s.now (Time.plus t Config.pulseTicks) = true then startPulse s l else s
  | .idle | .heldInReset | .reading _ | .pulse .. => s

/-- COIL_PULSE_START (R134). -/
def execCoilPulseStart (s : State) : Result := .next (coilPulseStart s)

/-! ## SYNC, RUN and hold-up (R167 to R169) -/

/-- SYNC_END (R167), taken 7813 ticks after the entry to SYNC. -/
def syncEnd (s : State) : State :=
  match s.sup.cameOn with
  | some t => if s.node = .sync ∧ arrived s.now (Time.plus t Config.syncTicks) = true then { s with node := .run } else s
  | none => s

/-- SYNC_END (R167). -/
def execSyncEnd (s : State) : Result := .next (syncEnd s)

/-- R168, R169: in HOLDUP a retention sense that reads low takes the node to OFF. -/
def retentionChecked (s : State) : State := if s.pins.retentionHigh then s else goOff s

/-- TRACK_POWER_ABSENT (R160, R168, R169), with what the retention sense reads. -/
def trackPowerAbsent (retentionHigh : Bool) (s : State) : State :=
  let s' : State := { s with pins := { s.pins with trackPower := false, retentionHigh := retentionHigh } }
  match s.node with
  | .off => s
  | .load | .setup | .fault => goOff s'
  | .sync | .run => retentionChecked (enterHoldup s')
  | .holdup => retentionChecked { s' with sup := { s'.sup with debounce := none } }

/-- TRACK_POWER_ABSENT (R168). -/
def execTrackPowerAbsent (retentionHigh : Bool) (s : State) : Result := .next (trackPowerAbsent retentionHigh s)

/-- TRACK_POWER_RETURN (R169), taken in HOLDUP with the debounce absent. -/
def trackPowerReturn (s : State) : State :=
  if s.node = .holdup ∧ s.sup.debounce = none then
    { s with pins := { s.pins with trackPower := true }, sup := { s.sup with debounce := some s.now } }
  else s

/-- TRACK_POWER_RETURN (R169). -/
def execTrackPowerReturn (s : State) : Result := .next (trackPowerReturn s)

/-- DEBOUNCE_COMPLETE (R169), taken in HOLDUP 2344 ticks after the debounce began: the warm restart. -/
def debounceComplete (s : State) : State :=
  match s.sup.debounce with
  | some t =>
    if s.node = .holdup ∧ arrived s.now (Time.plus t Config.debounceTicks) = true then enterSync s else s
  | none => s

/-- DEBOUNCE_COMPLETE (R169). -/
def execDebounceComplete (s : State) : Result := .next (debounceComplete s)

/-- RETENTION_LOW (R169): in HOLDUP the retention sense reads low. -/
def retentionLow (s : State) : State := if s.node = .holdup then goOff s else s

/-- RETENTION_LOW (R169). -/
def execRetentionLow (s : State) : Result := .next (retentionLow s)

/-- RETENTION_ENDS (R160): in any state but OFF. -/
def retentionEnds (s : State) : State := if s.node = .off then s else goOff s

/-- RETENTION_ENDS (R160). -/
def execRetentionEnds (s : State) : Result := .next (retentionEnds s)

/-! ## The reset and heat inputs (R171, R172) -/

/-- RESET_ASSERT (R171), in any state but OFF. -/
def resetAssert (s : State) : State :=
  if s.node = .off then s else enterLoad { s with pins := { s.pins with resetHeld := true } }

/-- RESET_ASSERT (R171). -/
def execResetAssert (s : State) : Result := .next (resetAssert s)

/-- RESET_RELEASE (R171): LOAD's work begins with the NV read. -/
def resetRelease (s : State) : State :=
  if s.node = .load ∧ s.sup.load = .heldInReset then
    { s with pins := { s.pins with resetHeld := false }, sup := { s.sup with nvBusy := true, load := .reading s.now } }
  else s

/-- RESET_RELEASE (R171). -/
def execResetRelease (s : State) : Result := .next (resetRelease s)

/-- HEAT_INPUT_RELEASED (R172): the input reads released now, in any state but OFF. -/
def heatInputReleased (s : State) : State :=
  if s.node = .off then s else { s with sup := { s.sup with heatReleased := some s.now } }

/-- HEAT_INPUT_RELEASED (R172). -/
def execHeatInputReleased (s : State) : Result := .next (heatInputReleased s)

/-- R172, R158: what a press does: in SYNC and RUN a HEAT frame is handed in and HEAT is applied. -/
def heatPressTaken (s : State) : State := if s.node.live then applyHeat (queueHeat s) else s

/-- HEAT_PRESS (R172): the input has read pressed for 156 ticks since it last read released. -/
def heatPress (s : State) : State :=
  match s.sup.heatReleased with
  | some t =>
    if s.node ≠ .off ∧ arrived s.now (Time.plus t Config.heatTicks) = true then
      heatPressTaken { s with sup := { s.sup with heatReleased := none } }
    else s
  | none => s

/-- HEAT_PRESS (R172). -/
def execHeatPress (s : State) : Result := .next (heatPress s)

/-! ## The nonvolatile store at work (R66, R166) -/

/-- SAVE_COMPLETE (R66), taken 375 ticks after the save began. All fifteen records reach the store here, and the old ones
stand until then: when within the 375 ticks each is written R66 leaves open (log 37, DESIGN CHOICE). -/
def saveComplete (s : State) : State :=
  match s.sup.save with
  | some t =>
    if arrived s.now (Time.plus t Config.saveTicks) then
      { s with nv := { s.nv with saveMark := 1, records := s.bind.entries.map saveRecord },
               sup := { s.sup with nvBusy := false, save := none }, bind := { s.bind with unsaved := false } }
    else s
  | none => s

/-- SAVE_COMPLETE (R66). -/
def execSaveComplete (s : State) : Result := .next (saveComplete s)

/-- R166: a write of a block begins. -/
def startWrite (s : State) (b : Block) : State :=
  { s with nv := { s.nv with writeMark := 1 },
           sup := { s.sup with nvBusy := true, write := some { since := s.now, block := b } } }

/-- CONFIG_WRITE_COMPLETE (R166), taken 313 ticks after the write began. The 16 bytes reach the configuration area here, and
the old block stands until then: when within the 313 ticks they land R166 leaves open (log 37, DESIGN CHOICE). -/
def configWriteComplete (s : State) : State :=
  match s.sup.write with
  | some w =>
    if arrived s.now (Time.plus w.since Config.writeTicks) then
      { s with nv := { s.nv with block := w.block, writeMark := 0 },
               sup := { s.sup with mirror := { s.sup.mirror with image := w.block }, nvBusy := false, write := none } }
    else s
  | none => s

/-- CONFIG_WRITE_COMPLETE (R166). -/
def execConfigWriteComplete (s : State) : Result := .next (configWriteComplete s)

end Sys2Proof.Machine
end

