-- ==== Sys2Proof/Machine/Line.lean ====
section
/-! DEFINITION. The section line controller (10): the node's own attempts, the deadlines and the BEACON, and the frames of the
other stations with their deliveries. The command of such a frame comes at its last bit with all its bits (log 9, DESIGN CHOICE). -/

namespace Sys2Proof.Machine

/-! ## The line state (R146) -/

/-- R146: WAIT_IDLE with `n` recessive bits in a row after one more bit. -/
def LineState.counted (n : Nat) (recessive : Bool) : LineState :=
  if recessive then (if n + 1 < Config.idleBits then .waitIdle (n + 1) else .ready) else .waitIdle 0

/-- The wire bits of the frame in reception, if one is: another station's, or the one the node has lost or faulted in. -/
def SendStatus.held : SendStatus → Option (List Bool)
  | .hearing r => some r
  | .lost r | .faulted r => some r.read
  | .idle | .sending _ => none

/-- R146: a bit of the frame in reception is read. -/
def SendStatus.hear (b : Bool) : SendStatus → SendStatus
  | .hearing r => .hearing (r ++ [b])
  | .lost r => .lost { r with read := r.read ++ [b] }
  | .faulted r => .faulted { r with read := r.read ++ [b] }
  | .idle => .idle
  | .sending a => .sending a

/-- R146: one bit read: WAIT_IDLE counts, a dominant bit in READY is the start bit of a frame, and FRAME reads on. -/
def LineController.read (c : LineController) (b : Bool) : LineController :=
  match c.state with
  | .waitIdle n => { c with state := LineState.counted n b }
  | .ready => if b then c else { c with state := .frame, send := .hearing [false] }
  | .frame => { c with send := c.send.hear b }

/-- R146: the frame in reception has ended with its last bit read. -/
def LineController.atEnd (c : LineController) : Bool :=
  decide (c.state = .frame) && c.send.held.any (fun r => decide (frameEnd r.tail ≠ .notAnEnd))

/-- R146: bits read one after the other; none where they go on past the end of a frame or stand at it, for that bit comes with
the frame's own command (log 10, DESIGN CHOICE). -/
def LineController.readAll : List Bool → LineController → Option LineController
  | [], c => if c.atEnd then none else some c
  | b :: rest, c => if c.atEnd then none else LineController.readAll rest (c.read b)

/-- The line state replaced. -/
def State.setLineState (s : State) (l : LineState) : State := { s with line := { s.line with state := l } }

/-- The send status replaced. -/
def State.setSend (s : State) (x : SendStatus) : State := { s with line := { s.line with send := x } }

/-- The controller replaced. -/
def State.setLine (s : State) (c : LineController) : State := { s with line := c }

/-- LINE_READY (R146): the bits read since the line state was last told. -/
def lineReady (bits : List Bool) (s : State) : State :=
  if s.node.listens then
    match LineController.readAll bits s.line with
    | some c => s.setLine c
    | none => s
  else s

/-- LINE_READY (R146). -/
def execLineReady (bits : List Bool) (s : State) : Result := .next (lineReady bits s)

/-- R146: a frame has ended: WAIT_IDLE with an idle count of 0, and the send status none. -/
def frameEnded (s : State) : State := (s.setLineState (.waitIdle 0)).setSend .idle

/-! ## The node's own attempts (R147 to R150) -/

/-- The node states in which the controller drives the wire (R143). -/
def NodeState.drives : NodeState → Bool
  | .setup | .sync | .run => true
  | .off | .load | .holdup | .fault => false

/-- R147: the attempt of a frame whose start bit is driven now, at place `phase` of the tick. -/
def newAttempt (now : Time) (phase : BitVec 3) (f : TxFrame) : Attempt :=
  let p := tickOfPosition now phase 20
  { frame := f, bits := f.wire p, start := now, phase := phase, payloadStart := p }

/-- ATTEMPT_START (R147), taken in READY with a frame queued. -/
def attemptStart (phase : BitVec 3) (s : State) : State :=
  match s.line.queue, s.line.send with
  | f :: _, .idle =>
    if s.node.drives && decide (s.line.state = .ready) then
      (s.setLineState .frame).setSend (.sending (newAttempt s.now phase f))
    else s
  | _, _ => s

/-- ATTEMPT_START (R147). -/
def execAttemptStart (phase : BitVec 3) (s : State) : Result := .next (attemptStart phase s)

/-- The bit time of a position of an attempt has come (log 10, DESIGN CHOICE). -/
def Attempt.reached (a : Attempt) (now : Time) (position : Nat) : Bool :=
  decide (position < a.bits.length) && arrived now (tickOfPosition a.start a.phase position)

/-- R148: a position at which a sender can lose: a header bit that it drives recessive. -/
def Attempt.loses (a : Attempt) (position : Nat) : Bool := isHeaderPosition position && a.bits.getD position false

/-- The wire as it was read up to and with a position at which the wire read `bit`. -/
def Attempt.readUpTo (a : Attempt) (position : Nat) (bit : Bool) : Reception :=
  { read := a.bits.take position ++ [bit], payloadStart := a.payloadStart }

/-- ARBITRATION_LOSS (R148), at a header bit driven recessive and read dominant. -/
def arbitrationLoss (position : Nat) (s : State) : State :=
  match s.line.send with
  | .sending a =>
    if a.reached s.now position && a.loses position then s.setSend (.lost (a.readUpTo position false)) else s
  | .idle | .hearing _ | .lost _ | .faulted _ => s

/-- ARBITRATION_LOSS (R148). -/
def execArbitrationLoss (position : Nat) (s : State) : Result := .next (arbitrationLoss position s)

/-- BIT_FAULT (R149), at a mismatch that is no loss. -/
def bitFault (position : Nat) (s : State) : State :=
  match s.line.send with
  | .sending a =>
    if a.reached s.now position && !a.loses position then
      s.setSend (.faulted (a.readUpTo position (!a.bits.getD position false)))
    else s
  | .idle | .hearing _ | .lost _ | .faulted _ => s

/-- BIT_FAULT (R149). -/
def execBitFault (position : Nat) (s : State) : Result := .next (bitFault position s)

/-- R150: a complete send is reported to the frame's owner; the grant unit alone acts on it (R119). -/
def reportSent (s : State) (f : TxFrame) : State :=
  match f.owner with
  | .grantUnit l => frameSent s l f.id
  | .planner | .bindingTable | .controller | .supervisor => s

/-- R150, R157: the BEACON timer restarts in SYNC and RUN. -/
def restartBeacon (s : State) : State :=
  if s.node.live then { s with line := { s.line with beacon := some s.now } } else s

/-- R150: the frame of an attempt has been completely sent. -/
def completeSend (s : State) (f : TxFrame) : State := restartBeacon (reportSent (removeFrame (frameEnded s) f.id) f)

/-- ATTEMPT_COMPLETE (R150), taken when the attempt's last CRC bit has been read back. -/
def attemptComplete (s : State) : State :=
  match s.line.send with
  | .sending a => if a.reached s.now (a.bits.length - 1) then completeSend s a.frame else s
  | .idle | .hearing _ | .lost _ | .faulted _ => s

/-- ATTEMPT_COMPLETE (R150). -/
def execAttemptComplete (s : State) : Result := .next (attemptComplete s)

/-! ## Deadlines and the BEACON (R155, R157) -/

/-- R125, R155: a TAKEN frame removed at its deadline is reported; the PROVISIONAL slot it belongs to is withdrawn as LATE,
which removes the frame. -/
def takenRemoved (s : State) (l : Lane) (f : TxFrame) : State :=
  match s.grants.slots.get l with
  | some g => if g.state = .provisional ∧ g.frame = some f.id then withdraw s l .late else removeFrame s f.id
  | none => removeFrame s f.id

/-- R155: a frame is removed at its deadline. -/
def removeLate (s : State) (f : TxFrame) : State :=
  match f.owner with
  | .grantUnit l => if f.isTaken then takenRemoved s l f else removeFrame s f.id
  | .planner | .bindingTable | .controller | .supervisor => removeFrame s f.id

/-- FRAME_DEADLINE (R155), taken when a held frame's deadline has arrived. -/
def frameDeadline (i : Nat) (s : State) : State :=
  match s.line.queue[i]? with
  | some f => if arrived s.now f.deadline then removeLate s f else s
  | none => s

/-- FRAME_DEADLINE (R155). -/
def execFrameDeadline (index : Nat) (s : State) : Result := .next (frameDeadline index s)

/-- R157: an older BEACON is removed before a newer one is entered. -/
def removeOldBeacon (s : State) : State :=
  match s.line.queue.find? TxFrame.isBeacon with
  | some f => removeFrame s f.id
  | none => s

/-- R157: the controller hands itself a BEACON, and the timer is set to that moment. -/
def beaconDue (s : State) : State := restartBeacon (queueBeacon (removeOldBeacon s))

/-- BEACON_TIMER (R157), taken in SYNC and RUN 3906 ticks after the node's last own transmission. -/
def beaconTimer (s : State) : State :=
  match s.line.beacon with
  | some t => if s.node.live && arrived s.now (Time.plus t Config.beaconTicks) then beaconDue s else s
  | none => s

/-- BEACON_TIMER (R157). -/
def execBeaconTimer (s : State) : Result := .next (beaconTimer s)

/-! ## Reading (R143, R146, R151) -/

/-- The node reads the frame that those wire bits spell: from its start bit in READY, or on from what it holds of the frame in
reception, another station's or the one that a loss or a bit fault made it a receiver of. -/
def readsFrame (s : State) (bits : List Bool) : Bool :=
  s.node.listens &&
    match s.line.send with
    | .idle => decide (s.line.state = .ready) && decide (bits.head? = some false)
    | .sending _ => false
    | .hearing r => r.isPrefixOf bits
    | .lost r => r.read.isPrefixOf bits
    | .faulted r => r.read.isPrefixOf bits

/-- R4, R151: the payload-start time that the node stamped on the frame it reads. -/
def stampOf (s : State) (phase : BitVec 3) (kind : FrameKind) : Time :=
  match s.line.send with
  | .lost r => r.payloadStart
  | .faulted r => r.payloadStart
  | .idle | .hearing _ | .sending _ => payloadStartOf s.now phase kind

/-- FRAME_DISCARDED (R151): a frame that is broken or not good ends and is discarded. -/
def frameDiscarded (bits : List Bool) (s : State) : State :=
  if readsFrame s bits && endsBad bits then frameEnded s else s

/-- FRAME_DISCARDED (R151). -/
def execFrameDiscarded (bits : List Bool) (s : State) : Result := .next (frameDiscarded bits s)

/-- R152: a good frame bears the node's own address in SYNC or RUN (log 27, DEDUCED). -/
def isClash (s : State) (f : GoodFrame) : Bool := s.node.live && decide (f.originator = s.working.address)

/-- R153 step 1, in SYNC, RUN and FAULT. -/
def heard (s : State) (f : GoodFrame) : State := if s.node.watching then refreshNeighbours s f else s

/-- R151 to R153: a good frame of a kind ends; it is a clash, or step 1 and then its takers are served. -/
def receiveFrame (kind : FrameKind) (take : GoodFrame → Time → State → State) (bits : List Bool) (phase : BitVec 3)
    (s : State) : State :=
  match goodFrame bits with
  | some f =>
    if readsFrame s bits && decide (f.kind = kind) then
      if isClash s f then enterFault (frameEnded s) else take f (stampOf s phase kind) (heard (frameEnded s) f)
    else s
  | none => s

/-! ## The takers (R153) -/

/-- R153: an originator is a configured neighbour. -/
def fromNeighbour (f : GoodFrame) (a : NodeAddr) : Bool := decide (a ≠ 0) && decide (f.originator = a)

/-- R153 step 2: the approach list, in SYNC, RUN and FAULT, where Gu gives an upstream projection (R5, R85). -/
def passToApproach (f : GoodFrame) (p : PassNotice) (o : Outcome) (payloadStart : Time) (s : State) : State :=
  if s.node.watching && fromNeighbour f s.working.upstream && decide (s.working.gu ≠ 0) then approachNotice s p o payloadStart
  else s

/-- R153 step 3: the claim table, in SYNC and RUN, where Gd gives a downstream check (R5, R128). -/
def passToClaims (f : GoodFrame) (p : PassNotice) (o : Outcome) (payloadStart : Time) (s : State) : State :=
  if s.node.live && fromNeighbour f s.working.downstream && decide (s.working.gd ≠ 0) then
    claimNotice s f.originator p o payloadStart
  else s

/-- R75: the order field of a notice at the binding table. -/
def orderReceived (s : State) (p : PassNotice) (o : Outcome) : State :=
  match p.order, Car.ofCode p.code with
  | some q, some car => updateStanding s car (Standing.receive q o)
  | _, _ => s

/-- R153 steps 4 and 5 for a PASS, in SYNC and RUN. -/
def passToTables (p : PassNotice) (o : Outcome) (s : State) : State :=
  if s.node.live then passConsumes (orderReceived s p o) p else s

/-- R153, R174: steps 2 to 5 for a PASS; one with an outcome code of 18 to 31 is taken without effect there. -/
def takePass (f : GoodFrame) (payloadStart : Time) (s : State) : State :=
  let p := decodePass (payloadWord 88 f.payload)
  match p.outcome with
  | some o => passToTables p o (passToClaims f p o payloadStart (passToApproach f p o payloadStart s))
  | none => s

/-- PASS_RECEIVED (R153). -/
def passReceived (bits : List Bool) (phase : BitVec 3) (s : State) : State := receiveFrame .pass takePass bits phase s

/-- PASS_RECEIVED (R153). -/
def execPassReceived (bits : List Bool) (phase : BitVec 3) (s : State) : Result := .next (passReceived bits phase s)

/-- R61: a BIND in SYNC and RUN is a proposal. -/
def takeBind (f : GoodFrame) (_payloadStart : Time) (s : State) : State :=
  match (decodeBind (payloadWord 48 f.payload)).proposal with
  | some p => if s.node.live then judgeProposal s p else s
  | none => s

/-- BIND_RECEIVED (R61). -/
def bindReceived (bits : List Bool) (phase : BitVec 3) (s : State) : State := receiveFrame .bind takeBind bits phase s

/-- BIND_RECEIVED (R61). -/
def execBindReceived (bits : List Bool) (phase : BitVec 3) (s : State) : Result := .next (bindReceived bits phase s)

/-- R62: a JOIN in SYNC and RUN. -/
def takeJoin (f : GoodFrame) (_payloadStart : Time) (s : State) : State :=
  if s.node.live then joinTaken s f.originator else s

/-- JOIN_RECEIVED (R62). -/
def joinReceived (bits : List Bool) (phase : BitVec 3) (s : State) : State := receiveFrame .join takeJoin bits phase s

/-- JOIN_RECEIVED (R62). -/
def execJoinReceived (bits : List Bool) (phase : BitVec 3) (s : State) : Result := .next (joinReceived bits phase s)

/-- R47, R64: a HEAT in SYNC and RUN. -/
def takeHeat (_f : GoodFrame) (_payloadStart : Time) (s : State) : State := if s.node.live then applyHeat s else s

/-- HEAT_RECEIVED (R64). -/
def heatReceived (bits : List Bool) (phase : BitVec 3) (s : State) : State := receiveFrame .heat takeHeat bits phase s

/-- HEAT_RECEIVED (R64). -/
def execHeatReceived (bits : List Bool) (phase : BitVec 3) (s : State) : Result := .next (heatReceived bits phase s)

/-- A frame taken by no block beyond step 1. -/
def takeNothing (_f : GoodFrame) (_payloadStart : Time) (s : State) : State := s

/-- BEACON_RECEIVED (R91). -/
def beaconReceived (bits : List Bool) (phase : BitVec 3) (s : State) : State := receiveFrame .beacon takeNothing bits phase s

/-- BEACON_RECEIVED (R91). -/
def execBeaconReceived (bits : List Bool) (phase : BitVec 3) (s : State) : Result := .next (beaconReceived bits phase s)

/-- CFGD_RECEIVED (R153): a CFGD is taken by no block beyond step 1. -/
def cfgdReceived (bits : List Bool) (phase : BitVec 3) (s : State) : State := receiveFrame .cfgd takeNothing bits phase s

/-- CFGD_RECEIVED (R153). -/
def execCfgdReceived (bits : List Bool) (phase : BitVec 3) (s : State) : Result := .next (cfgdReceived bits phase s)

/-! ## Setup frames (R153, R165, R166) -/

/-- The first payload byte of a setup frame. -/
def targetByte (payload : List Bool) : Byte := payloadWord 8 (payload.take 8)

/-- R153, R165: a setup frame of the setup tool is addressed to the node; the byte is compared whole (R175). -/
def addressed (s : State) (f : GoodFrame) : Bool :=
  decide (s.node = .setup) && decide (f.originator = Config.setupTool)
    && decide (targetByte f.payload = s.sup.setupAddress.setWidth 8)

/-- R165: a CFGR is answered with a CFGD. -/
def takeCfgr (f : GoodFrame) (_payloadStart : Time) (s : State) : State := if addressed s f then queueCfgd s else s

/-- CFGR_RECEIVED (R165). -/
def cfgrReceived (bits : List Bool) (phase : BitVec 3) (s : State) : State := receiveFrame .cfgr takeCfgr bits phase s

/-- CFGR_RECEIVED (R165). -/
def execCfgrReceived (bits : List Bool) (phase : BitVec 3) (s : State) : Result := .next (cfgrReceived bits phase s)

/-- R166: the block that a CFGW carries after its target byte. -/
def carriedBlock (payload : List Bool) : Block := decodeBlock (payloadWord 128 (payload.drop 8))

/-- R166: a CFGW begins a write when the NV store is not busy and the block's check byte is right. -/
def takeCfgw (f : GoodFrame) (_payloadStart : Time) (s : State) : State :=
  if addressed s f && !s.sup.nvBusy && (carriedBlock f.payload).checkOk then startWrite s (carriedBlock f.payload) else s

/-- CFGW_RECEIVED (R166). -/
def cfgwReceived (bits : List Bool) (phase : BitVec 3) (s : State) : State := receiveFrame .cfgw takeCfgw bits phase s

/-- CFGW_RECEIVED (R166). -/
def execCfgwReceived (bits : List Bool) (phase : BitVec 3) (s : State) : Result := .next (cfgwReceived bits phase s)

/-- R165: a CFGX takes the node into LOAD when the NV store is not busy. -/
def takeCfgx (f : GoodFrame) (_payloadStart : Time) (s : State) : State :=
  if addressed s f && !s.sup.nvBusy then enterLoad s else s

/-- CFGX_RECEIVED (R165). -/
def cfgxReceived (bits : List Bool) (phase : BitVec 3) (s : State) : State := receiveFrame .cfgx takeCfgx bits phase s

/-- CFGX_RECEIVED (R165). -/
def execCfgxReceived (bits : List Bool) (phase : BitVec 3) (s : State) : Result := .next (cfgxReceived bits phase s)

end Sys2Proof.Machine
end

