-- ==== Sys2Proof/Machine/TimeBase.lean ====
section
/-! DEFINITION. The time base (01): TICK, with the age cap of R3 at every owner of past stamps (log 33, DEDUCED) and the gap timers of the
gates (R19, R33). -/

namespace Sys2Proof.Machine

/-- R3 at a stamp that may be absent. -/
def capOption (now : Time) (t : Option Time) : Option Time := t.map (capStamp now)

/-- R3 at a passage. -/
def Passage.cap (now : Time) (p : Passage) : Passage := { p with first := capStamp now p.first, last := capStamp now p.last }

/-- R3 at a gate state. -/
def GateState.cap (now : Time) : GateState → GateState
  | .idle => .idle
  | .open p => .open (p.cap now)
  | .stall p c d => .stall (p.cap now) c d

/-- R19, R28, R33: the gap timer after one more tick: it counts in OPEN and STALL outside blanking, and need not go past
24 (log 13, DESIGN CHOICE). -/
def Gate.nextGap (g : Gate) : Nat :=
  if g.isIdle || g.blanking.isSome then g.gap else min Config.gapTicks (g.gap + 1)

/-- A gate at a tick; a tick in which blanking began is over (log 36, DEDUCED). -/
def Gate.tick (now : Time) (g : Gate) : Gate := { g with gap := g.nextGap, state := g.state.cap now, dropped := none }

/-- R3 at a handset entry. -/
def HandsetEntry.cap (now : Time) (e : HandsetEntry) : HandsetEntry :=
  { e with lastHeard := capStamp now e.lastHeard, gestureTime := capStamp now e.gestureTime,
           request := e.request.map (fun r => { r with latched := capStamp now r.latched }) }

/-- R3 at an occupancy entry. -/
def OccupancyEntry.cap (now : Time) (e : OccupancyEntry) : OccupancyEntry :=
  { e with tRef := capStamp now e.tRef, start := capStamp now e.start }

/-- R3 at a neighbour record. -/
def NeighbourRecord.cap (now : Time) (r : NeighbourRecord) : NeighbourRecord :=
  { r with lastHeard := capOption now r.lastHeard }

/-- R3 at the occupancy block. -/
def OccupancyBlock.cap (now : Time) (o : OccupancyBlock) : OccupancyBlock :=
  { o with list := o.list.map (OccupancyEntry.cap now), lastClose := o.lastClose.map (capOption now),
           up := o.up.cap now, down := o.down.cap now }

/-- R3 at a grant slot. -/
def Grant.cap (now : Time) (g : Grant) : Grant := { g with tRef := capStamp now g.tRef }

/-- R3 at a blade: the cooling end once it has passed (R133), and the tick the coil went on. -/
def Blade.cap (now : Time) (b : Blade) : Blade :=
  { b with coolingEnd := capOption now b.coolingEnd, drivenSince := capOption now b.drivenSince }

/-- R3 at a queued frame. -/
def TxFrame.cap (now : Time) (f : TxFrame) : TxFrame :=
  { f with queued := capStamp now f.queued,
           body := match f.body with
             | .pass p => .pass { p with tRef := capStamp now p.tRef }
             | .bind b => .bind b
             | .heat => .heat
             | .join => .join
             | .beacon ds dm lanes => .beacon ds dm lanes
             | .cfgd b => .cfgd b }

/-- R3 at the section line controller. -/
def LineController.cap (now : Time) (c : LineController) : LineController :=
  { c with queue := c.queue.map (TxFrame.cap now), beacon := capOption now c.beacon }

/-- R3 at LOAD's work. -/
def LoadWork.cap (now : Time) : LoadWork → LoadWork
  | .idle => .idle
  | .heldInReset => .heldInReset
  | .reading t => .reading (capStamp now t)
  | .pulse l t => .pulse l (capStamp now t)
  | .rest l t => .rest l (capStamp now t)

/-- R3 at the supervisor. -/
def Supervisor.cap (now : Time) (u : Supervisor) : Supervisor :=
  { u with cameOn := capOption now u.cameOn, debounce := capOption now u.debounce,
           heatReleased := capOption now u.heatReleased, load := u.load.cap now, save := capOption now u.save,
           write := u.write.map (fun w => { w with since := capStamp now w.since }) }

/-- TICK (R1, R3): track time goes on by 1, in every state but OFF. -/
def tick (s : State) : State :=
  if s.node = .off then s
  else
    let now := Time.plus s.now 1
    { s with
      now := now
      sup := s.sup.cap now
      gates := s.gates.map (Gate.tick now)
      handsets := s.handsets.map (HandsetEntry.cap now)
      occ := s.occ.cap now
      grants := { s.grants with slots := s.grants.slots.map (Option.map (Grant.cap now)) }
      blades := s.blades.map (Blade.cap now)
      line := s.line.cap now }

/-- TICK (R1). -/
def execTick (s : State) : Result := .next (tick s)

end Sys2Proof.Machine
end

