-- ==== Sys2Proof/Machine/Dispatch.lean ====
section
/-! DEFINITION. Which meaning answers each command. -/

namespace Sys2Proof.Machine

/-- The effect of a command on everything but the queue of waiting commands. -/
def exec (i : Instr) (s : State) : Host.Outcome State Fault Refusal :=
  match i with
  | .irEdge lane first second => Sys2Proof.Machine.execIrEdge lane first second s
  | .passageClose lane => Sys2Proof.Machine.execPassageClose lane s
  | .stallDeclaration lane => Sys2Proof.Machine.execStallDeclaration lane s
  | .stallEnd lane => Sys2Proof.Machine.execStallEnd lane s
  | .noticeComplete lane => Sys2Proof.Machine.execNoticeComplete lane s
  | .blankingEnd lane => Sys2Proof.Machine.execBlankingEnd lane s
  | .handsetFrame levels span => Sys2Proof.Machine.execHandsetFrame levels span s
  | .handsetStaleRemoval addr => Sys2Proof.Machine.execHandsetStaleRemoval addr s
  | .requestExpiry addr => Sys2Proof.Machine.execRequestExpiry addr s
  | .gestureLapse addr => Sys2Proof.Machine.execGestureLapse addr s
  | .noticeRunRepeat lane => Sys2Proof.Machine.execNoticeRunRepeat lane s
  | .saveComplete => Sys2Proof.Machine.execSaveComplete s
  | .occupancyExpiry index => Sys2Proof.Machine.execOccupancyExpiry index s
  | .laneHoldEnd lane => Sys2Proof.Machine.execLaneHoldEnd lane s
  | .approachExpiry index => Sys2Proof.Machine.execApproachExpiry index s
  | .neighbourSilence side => Sys2Proof.Machine.execNeighbourSilence side s
  | .grantLate lane => Sys2Proof.Machine.execGrantLate lane s
  | .claimExpiry index => Sys2Proof.Machine.execClaimExpiry index s
  | .coilPulseEnd currentPresent strapHeld => Sys2Proof.Machine.execCoilPulseEnd currentPresent strapHeld s
  | .bladeThrow lane => Sys2Proof.Machine.execBladeThrow lane s
  | .bladeRelease lane => Sys2Proof.Machine.execBladeRelease lane s
  | .coolingEnd lane => Sys2Proof.Machine.execCoolingEnd lane s
  | .openCoil lane before now => Sys2Proof.Machine.execOpenCoil lane before now s
  | .attemptStart phase => Sys2Proof.Machine.execAttemptStart phase s
  | .arbitrationLoss position => Sys2Proof.Machine.execArbitrationLoss position s
  | .bitFault position => Sys2Proof.Machine.execBitFault position s
  | .attemptComplete => Sys2Proof.Machine.execAttemptComplete s
  | .frameDeadline index => Sys2Proof.Machine.execFrameDeadline index s
  | .beaconTimer => Sys2Proof.Machine.execBeaconTimer s
  | .frameDiscarded bits => Sys2Proof.Machine.execFrameDiscarded bits s
  | .passReceived bits phase => Sys2Proof.Machine.execPassReceived bits phase s
  | .bindReceived bits phase => Sys2Proof.Machine.execBindReceived bits phase s
  | .joinReceived bits phase => Sys2Proof.Machine.execJoinReceived bits phase s
  | .heatReceived bits phase => Sys2Proof.Machine.execHeatReceived bits phase s
  | .beaconReceived bits phase => Sys2Proof.Machine.execBeaconReceived bits phase s
  | .cfgdReceived bits phase => Sys2Proof.Machine.execCfgdReceived bits phase s
  | .cfgrReceived bits phase => Sys2Proof.Machine.execCfgrReceived bits phase s
  | .cfgwReceived bits phase => Sys2Proof.Machine.execCfgwReceived bits phase s
  | .configWriteComplete => Sys2Proof.Machine.execConfigWriteComplete s
  | .cfgxReceived bits phase => Sys2Proof.Machine.execCfgxReceived bits phase s
  | .powerOn resetHeld => Sys2Proof.Machine.execPowerOn resetHeld s
  | .loadReadComplete strapHeld => Sys2Proof.Machine.execLoadReadComplete strapHeld s
  | .syncEnd => Sys2Proof.Machine.execSyncEnd s
  | .trackPowerAbsent retentionHigh => Sys2Proof.Machine.execTrackPowerAbsent retentionHigh s
  | .trackPowerReturn => Sys2Proof.Machine.execTrackPowerReturn s
  | .debounceComplete => Sys2Proof.Machine.execDebounceComplete s
  | .retentionLow => Sys2Proof.Machine.execRetentionLow s
  | .resetAssert => Sys2Proof.Machine.execResetAssert s
  | .resetRelease => Sys2Proof.Machine.execResetRelease s
  | .heatPress => Sys2Proof.Machine.execHeatPress s
  | .tick => Sys2Proof.Machine.execTick s
  | .levelSettled lane first second => Sys2Proof.Machine.execLevelSettled lane first second s
  | .lineReady bits => Sys2Proof.Machine.execLineReady bits s
  | .coilPulseStart => Sys2Proof.Machine.execCoilPulseStart s
  | .heatInputReleased => Sys2Proof.Machine.execHeatInputReleased s
  | .retentionEnds => Sys2Proof.Machine.execRetentionEnds s

end Sys2Proof.Machine
end

