-- ==== Sys2Proof/Safety.lean ====
section
/-! DEFINITION. What counts as a sound state and a sound step: the invariants of the rules, the causes of R159, and what it takes
for a frame to be delivered; and the wording of checks, of a decoded code told and of the replay. -/

namespace Sys2Proof.Safety

open Sys2Proof.Machine

/-! ## Collections -/

/-- R37, R77, R85, R128, R154: the capacities; R85, R128: an identified car code stands in at most one approach record and in
at most one claim. -/
def collectionsKept (s : State) : Prop :=
  s.handsets.length ≤ Config.handsetCap ∧ s.occ.list.length ≤ Config.occupancyCap ∧
  s.occ.approach.length ≤ Config.approachCap ∧ s.grants.claims.length ≤ Config.claimCap ∧
  s.line.queue.length ≤ Config.queueCap ∧
  (∀ c : CarCode, c ≠ 0 → (s.occ.approach.filter (fun r => decide (r.code = c))).length ≤ 1) ∧
  (∀ c : CarCode, c ≠ 0 → (s.grants.claims.filter (fun x => decide (x.code = c))).length ≤ 1)

/-- A time lies within 2^29 ticks of the present, so that the differences of such times do not wrap (R2). -/
def near (now t : Time) : Prop := -536870912 < Time.diff now t ∧ Time.diff now t < 536870912

/-- R85, R128: the approach list stands in order of predicted arrival, and the claim table in order of window start. -/
def listsOrdered (s : State) : Prop :=
  s.occ.approach.Pairwise (fun a b => Time.diff s.now a.arrival ≤ Time.diff s.now b.arrival) ∧
  s.grants.claims.Pairwise (fun a b => Time.diff s.now a.window.start ≤ Time.diff s.now b.window.start)

/-- The times that order those lists, and the stamp of a frame in reception, lie near the present. -/
def timesNear (s : State) : Prop :=
  (∀ r ∈ s.occ.approach, near s.now r.arrival) ∧ (∀ c ∈ s.grants.claims, near s.now c.window.start) ∧
  ∀ r, s.line.send = .lost r ∨ s.line.send = .faulted r → near s.now r.payloadStart

/-- `new` is `old` with `x` entered just before the first element that is later. -/
def enteredBefore {α : Type} (later : α → Prop) (x : α) (old new : List α) : Prop :=
  ∃ a b, old = a ++ b ∧ new = a ++ x :: b ∧ (∀ y ∈ a, ¬later y) ∧ ∀ y ∈ b.head?, later y

/-! ## Bindings -/

/-- R53: a handset is bound to at most one car. -/
def boundOnce (t : CodeTable Binding) : Prop :=
  ∀ (c d : Car) (h : HandsetAddr), (t.get c).handset = some h → (t.get d).handset = some h → c = d

/-- R69: a FREE entry holds neither an order nor a run-out mark, and an order asks for 1 to 7 changes. -/
def orderKept (b : Binding) : Prop :=
  (b.handset = none → b.standing = .empty) ∧ ∀ d n, b.standing = .order d n → 1 ≤ n ∧ n ≤ 7

/-- The binding table as R53 and R69 want it. -/
def bindingsKept (s : State) : Prop := boundOnce s.bind.entries ∧ ∀ c, orderKept (s.bind.entries.get c)

/-! ## Grants and blades -/

/-- R156: a TAKEN frame in the queue belongs to a PROVISIONAL slot. -/
def takenKept (s : State) : Prop :=
  ∀ f ∈ s.line.queue, f.isTaken = true → ∃ l g, s.grants.slots.get l = some g ∧ g.state = .provisional ∧ g.frame = some f.id

/-- R117, R119, R132, R133, R136 at one lane: no slot is filled and no blade ARMED or THROWN outside RUN; a blade is ARMED
or THROWN exactly while its slot is COMMITTED, and REST while it is PROVISIONAL; the coil is on exactly while the blade
is THROWN or under its presence pulse; an ARMED or THROWN blade holds its times. -/
def bladeKept (s : State) (l : Lane) : Prop :=
  (s.node ≠ .run → s.grants.slots.get l = none ∧ (s.blades.get l).state ≠ .armed ∧ (s.blades.get l).state ≠ .thrown) ∧
  ((s.blades.get l).state = .armed ∨ (s.blades.get l).state = .thrown ↔
    ∃ g, s.grants.slots.get l = some g ∧ g.state = .committed) ∧
  (∀ g, s.grants.slots.get l = some g → g.state = .provisional → (s.blades.get l).state = .rest) ∧
  ((s.blades.get l).coil = true ↔ (s.blades.get l).state = .thrown ∨ ∃ t, s.sup.load = .pulse l t) ∧
  ((s.blades.get l).state = .armed ∨ (s.blades.get l).state = .thrown →
    (s.blades.get l).throwAt.isSome = true ∧ (s.blades.get l).releaseAt.isSome = true)

/-- Every lane's slot and blade agree, every TAKEN frame has its slot, and LOAD's work is under way only in LOAD. -/
def bladesKept (s : State) : Prop := (s.sup.load ≠ .idle → s.node = .load) ∧ (∀ l, bladeKept s l) ∧ takenKept s

/-- R74: what an entry's order or run-out mark becomes when a grant ends without a throw. -/
def givenBack (g : Grant) (c : Car) (x : Standing) : Standing :=
  match g.used, x with
  | .order d, .order e n => if c.code = g.code ∧ e = d then .order e (min 7 (n + 1)) else x
  | .order d, .runOut e => if c.code = g.code ∧ e = d then .order e 1 else x
  | _, _ => x

/-- R74, R127: `n` is the notice of a grant of lane `l` that ends in `o`, its order field read in the state that is left. -/
def endsWith (s t : State) (l : Lane) (g : Grant) (o : Outcome) (n : PassBody) : Prop :=
  n.code = g.code ∧ n.laneIn = l ∧ n.laneOut = l ∧ n.outcome = o ∧ n.tRef = g.tRef ∧ n.pace = g.pace ∧
  n.startOffset = startOffset s.working g.pace.ticks ∧ n.endOffset = endOffset s.working g.pace.ticks ∧
  (∀ k, n.pressed = some k ↔
    g.used = .press k ∧ ∃ car, Car.ofCode g.code = some car ∧ (s.bind.entries.get car).handset = some g.handset) ∧
  ∀ x, n.order = some x ↔ ∃ car, Car.ofCode g.code = some car ∧ (t.bind.entries.get car).standing = .order x.dir x.remaining

/-! ## Line and gates -/

/-- R143: the states in which the part drives nothing on the section line. -/
def silent (n : NodeState) : Prop := n = .off ∨ n = .load ∨ n = .holdup ∨ n = .fault

/-- R143, R146, R154, R157: in the silent states nothing is queued or sent; SETUP queues CFGD frames only; the BEACON timer
runs exactly in SYNC and RUN; an attempt or a reception stands exactly in FRAME; the queue stands in order of level, within a
level in order of queue time and, for frames of one tick, as they were handed in, which their numbers say (log 22, DESIGN
CHOICE): no two are alike, and the next is above them all. Level 0 is that of the PASS frames (R156, R173). -/
def lineKept (s : State) : Prop :=
  (silent s.node → s.line.queue = [] ∧ ∀ a, s.line.send ≠ .sending a) ∧
  (s.node = .setup → ∀ f ∈ s.line.queue, f.body.kind = .cfgd) ∧
  (s.line.beacon.isSome = true ↔ s.node.live = true) ∧
  (s.line.send ≠ .idle ↔ s.line.state = .frame) ∧
  s.line.queue.Pairwise (fun a b => a.level.toNat < b.level.toNat ∨
    (a.level = b.level ∧ Time.diff b.queued s.now ≤ Time.diff a.queued s.now ∧ a.id < b.id)) ∧
  (∀ f ∈ s.line.queue, 0 ≤ Time.diff f.queued s.now ∧ Time.diff f.queued s.now ≤ 1048576) ∧
  s.line.queue.Pairwise (fun a b => a.id ≠ b.id) ∧ (∀ f ∈ s.line.queue, f.id < s.line.nextId) ∧
  ∀ f ∈ s.line.queue, f.level = 0 ↔ f.body.kind = .pass

/-- R156: the frame at place `i` of a full queue is the one that is dropped: of the least urgent level present the earliest,
or, where every frame is at level 0, the earliest PASS that is no TAKEN. -/
def dropped (q : List TxFrame) (i : Nat) (v : TxFrame) : Prop :=
  q[i]? = some v ∧
  ((∃ x ∈ q, x.level ≠ 0) → (∀ x ∈ q, x.level.toNat ≤ v.level.toNat) ∧ ∀ x ∈ q.take i, x.level ≠ v.level) ∧
  ((∀ x ∈ q, x.level = 0) → v.body.kind = .pass ∧ v.isTaken = false ∧
    ∀ x ∈ q.take i, ¬(x.body.kind = .pass ∧ x.isTaken = false))

/-- R154, R156: `new` is `old` with a frame handed in: entered in its place while fewer than 8 are held, else in the room of
the one that is dropped. Where none can be dropped it is not entered (log 23, DESIGN CHOICE). -/
def queuedIn (f : TxFrame) (old new : List TxFrame) : Prop :=
  (old.length < 8 → new = enterFrame f old) ∧
  (8 ≤ old.length → (∀ i v, dropped old i v → new = enterFrame f (old.eraseIdx i)) ∧
    ((∀ i v, ¬dropped old i v) → new = old))

/-- R18, R30, R31, R33, R34: a gate that does not work is off; a notice is pending only while one is in progress, and one is in
progress only in SYNC or RUN at a gate in STALL that is blanking; and no gate that is blanking has an open passage. -/
def gatesKept (s : State) : Prop :=
  ∀ l, (gateWorks s l = false → s.gates.get l = Gate.off) ∧
    ((s.gates.get l).waiting.isSome = true → (s.gates.get l).sending.isSome = true) ∧
    ((s.gates.get l).sending.isSome = true →
      s.node.live = true ∧ (s.gates.get l).isStalled = true ∧ (s.gates.get l).blanking.isSome = true) ∧
    ((s.gates.get l).blanking.isSome = true → (s.gates.get l).isStalled = true ∨ (s.gates.get l).isIdle = true)

/-! ## Causes -/

/-- R159, R160, R168, R169, R171: the changes of node state that a command can cause, an entry to OFF in the same event as an
entry to HOLDUP or LOAD among them. -/
def causes (c : Instr) (a b : NodeState) : Bool :=
  match c with
  | .powerOn _ => a == .off && b == .load
  | .loadReadComplete _ | .coilPulseEnd .. => a == .load && (b == .setup || b == .sync)
  | .syncEnd => a == .sync && b == .run
  | .trackPowerAbsent _ =>
    ((a == .load || a == .setup || a == .fault || a == .holdup) && b == .off)
      || ((a == .sync || a == .run) && (b == .holdup || b == .off))
  | .debounceComplete => a == .holdup && b == .sync
  | .retentionLow => a == .holdup && b == .off
  | .retentionEnds => a != .off && b == .off
  | .resetAssert => a != .off && (b == .load || b == .off)
  | .cfgxReceived .. => (a == .setup && (b == .load || b == .off)) || ((a == .sync || a == .run) && b == .fault)
  | .passReceived .. | .bindReceived .. | .joinReceived .. | .heatReceived .. | .beaconReceived .. | .cfgdReceived ..
  | .cfgrReceived .. | .cfgwReceived .. => (a == .sync || a == .run) && b == .fault
  | .irEdge .. | .passageClose _ | .stallDeclaration _ | .stallEnd _ | .noticeComplete _ | .blankingEnd _ | .handsetFrame ..
  | .handsetStaleRemoval _ | .requestExpiry _ | .gestureLapse _ | .noticeRunRepeat _ | .saveComplete | .occupancyExpiry _
  | .laneHoldEnd _ | .approachExpiry _ | .neighbourSilence _ | .grantLate _ | .claimExpiry _ | .bladeThrow _ | .bladeRelease _
  | .coolingEnd _ | .openCoil .. | .attemptStart _ | .arbitrationLoss _ | .bitFault _ | .attemptComplete | .frameDeadline _
  | .beaconTimer | .frameDiscarded _ | .configWriteComplete | .trackPowerReturn | .resetRelease | .heatPress | .tick
  | .levelSettled .. | .lineReady _ | .coilPulseStart | .heatInputReleased => false

/-- R66, R67, R166: the commands in whose event the nonvolatile store can change. -/
def writesStore : Instr → Bool
  | .saveComplete | .cfgwReceived .. | .configWriteComplete | .trackPowerAbsent _ | .retentionLow | .retentionEnds | .resetAssert
  | .cfgxReceived .. => true
  | .powerOn _ | .loadReadComplete _ | .coilPulseEnd .. | .syncEnd | .debounceComplete | .passReceived .. | .bindReceived ..
  | .joinReceived .. | .heatReceived .. | .beaconReceived .. | .cfgdReceived .. | .cfgrReceived .. | .irEdge .. | .passageClose _
  | .stallDeclaration _ | .stallEnd _ | .noticeComplete _ | .blankingEnd _ | .handsetFrame .. | .handsetStaleRemoval _
  | .requestExpiry _ | .gestureLapse _ | .noticeRunRepeat _ | .occupancyExpiry _ | .laneHoldEnd _ | .approachExpiry _
  | .neighbourSilence _ | .grantLate _ | .claimExpiry _ | .bladeThrow _ | .bladeRelease _ | .coolingEnd _ | .openCoil ..
  | .attemptStart _ | .arbitrationLoss _ | .bitFault _ | .attemptComplete | .frameDeadline _ | .beaconTimer | .frameDiscarded _
  | .trackPowerReturn | .resetRelease | .heatPress | .tick | .levelSettled .. | .lineReady _ | .coilPulseStart
  | .heatInputReleased => false

/-! ## Frames -/

/-- The node reads the bits, they end a good frame `f` of a kind (R151), and it is no address clash (R152). -/
def delivered (s : State) (bits : List Bool) (kind : FrameKind) (f : GoodFrame) : Prop :=
  readsFrame s bits = true ∧ goodFrame bits = some f ∧ f.kind = kind ∧ isClash s f = false

/-- The command by which a good frame of a kind ends. -/
def received (kind : FrameKind) (bits : List Bool) (phase : BitVec 3) : Instr :=
  match kind with
  | .pass => .passReceived bits phase
  | .bind => .bindReceived bits phase
  | .heat => .heatReceived bits phase
  | .join => .joinReceived bits phase
  | .beacon => .beaconReceived bits phase
  | .cfgr => .cfgrReceived bits phase
  | .cfgd => .cfgdReceived bits phase
  | .cfgw => .cfgwReceived bits phase
  | .cfgx => .cfgxReceived bits phase

/-- R27, R54, R59, R79: what follows when a gate tells of a new decoded code: the lane's open STALL entry takes it, and in SYNC
and RUN a notice run of another car at that gate ends and the local bind condition is judged. -/
def codeTold (s : State) (l : Lane) (c : CarCode) : State :=
  let u : State := { s with occ := { s.occ with list := s.occ.list.map (fun e =>
    if e.kind = .stall ∧ e.lane = l ∧ e.stop = .open then { e with code := c } else e) } }
  let others (r : NoticeRun) : Bool := decide (r.car.code ≠ c)
  if s.node = .sync ∨ s.node = .run then
    judgeLocal { u with bind := { u.bind with
      runs := if (u.bind.runs.get l).any others then u.bind.runs.set l none else u.bind.runs } }
  else u

/-- R91, R153: a neighbour record after a frame that is no BEACON: that of its originator takes the present as last-heard time. -/
def heardFrom (s : State) (f : GoodFrame) (r : NeighbourRecord) : NeighbourRecord :=
  if r.address = f.originator ∧ r.address ≠ 0 then { r with lastHeard := some s.now } else r

/-- R91, R153: a frame that is no BEACON has ended on the line and step 1 is done; nothing else has changed. -/
def heardOnly (s : State) (f : GoodFrame) : State :=
  { s with
    occ := { s.occ with up := heardFrom s f s.occ.up, down := heardFrom s f s.occ.down }
    line := { s.line with state := .waitIdle 0, send := .idle } }

/-- R39, R53: the handset entries after car `c` is bound to `h`, or freed: the entry of its former handset goes where that one
is then bound to no car and was last heard 31250 ticks ago or earlier. -/
def handsetsRebound (s : State) (c : Car) (h : Option HandsetAddr) : List HandsetEntry :=
  let gone (a : HandsetAddr) : Bool :=
    decide ((s.bind.entries.get c).handset = some a) && decide (h ≠ some a) &&
      decide (∀ d, d ≠ c → (s.bind.entries.get d).handset ≠ some a) &&
      (handsetEntry s a).any (fun x => arrived s.now (Time.plus x.lastHeard 31250))
  s.handsets.filter (fun e => !gone e.address)

/-- R44: the handset entries after a PASS from another node: the request it names is removed. -/
def handsetsAfterPass (s : State) (p : PassNotice) : List HandsetEntry :=
  s.handsets.map (fun e => match p.pressed, e.request with
    | some n, some q =>
      if (∃ car, Car.ofCode p.code = some car ∧ (s.bind.entries.get car).handset = some e.address) ∧ q.count = n
      then { e with request := none } else e
    | _, _ => e)

/-- R75: what an entry's order or run-out mark becomes at a PASS from another node with outcome `o`. -/
def standingAfterPass (p : PassNotice) (o : Outcome) (c : Car) (x : Standing) : Standing :=
  match p.order, x with
  | some q, .order d n => if c.code = p.code then (if q.remaining = 0 then .runOut d else .order d q.remaining) else .order d n
  | some q, .runOut d =>
    if c.code = p.code ∧ q.remaining ≠ 0 ∧ (o = .yielded ∨ o = .late ∨ o = .aborted) then .order q.dir q.remaining
    else .runOut d
  | _, _ => x

/-- R35, R36: with the port on, the levels of the handset line close a run that was heard whole and spells a frame. -/
def frameHeard (s : State) (levels : List Bool) (span : Nat) (f : HandsetFrame) : Prop :=
  s.node.live = true ∧ ∃ r, closedRun levels = some r ∧ r.spans span = true ∧ runHeardWhole s span = true ∧
    handsetFrameOf r.chars = some f

/-- The wire bits end no frame at any of their first places from `n` on (R146). -/
def runsOn (n : Nat) (wire : List Bool) : Prop := ∀ k, n ≤ k → k ≤ wire.length → frameEnd (wire.take k).tail = .notAnEnd

/-! ## The checks of a decision, in words of the collections (R94 to R113) -/

/-- R2: a time lies in a window, both ends included. -/
def within (w : Window) (t : Time) : Prop := Time.atOrBefore w.start t = true ∧ Time.atOrBefore t w.stop = true

/-- R16: two windows conflict. -/
def overlap (v w : Window) : Prop := Time.atOrBefore v.start w.stop = true ∧ Time.atOrBefore w.start v.stop = true

/-- R110: a car of the lane that is not set aside has its blade time in the hold; a car of code 0 is never set aside. -/
def followingMet (s : State) (lane : Lane) (aside : List CarCode) (hold : Window) : Prop :=
  (∃ e ∈ s.occ.list, e.kind = .passage ∧ e.lane = lane ∧ (e.code = 0 ∨ e.code ∉ aside) ∧
    within hold (Time.plus e.tRef (travel s.working.ds e.pace.ticks))) ∨
  ∃ r ∈ s.occ.approach, r.lane = lane ∧ (r.code = 0 ∨ r.code ∉ aside) ∧ within hold r.bladeTime

/-- R111: the window conflicts with one in the target lane, the TARGET entry linked to the slot of lane `own` set aside. -/
def targetMet (s : State) (target : Lane) (w : Window) (own : Option Lane) : Prop :=
  (∃ e ∈ s.occ.list, e.lane = target ∧ ¬(e.kind = .target ∧ e.link ≠ none ∧ e.link = own) ∧
    ((∃ t, e.stop = .at t ∧ overlap w ⟨e.start, t⟩) ∨ (e.stop = .open ∧ Time.atOrBefore e.start w.stop = true))) ∨
  ∃ r ∈ s.occ.approach, r.lane = target ∧ overlap w r.window

/-- R92, R112: the upstream neighbour is silent, and the target lane's last close lies no more than the blind hold before `d`. -/
def blindMet (s : State) (target : Lane) (d : Time) : Prop :=
  s.working.gu ≠ 0 ∧ (∃ h, s.occ.up.lastHeard = some h ∧ arrived s.now (Time.plus h 15625) = true) ∧
  ∃ t, s.occ.lastClose.get target = some t ∧ Time.diff t d ≤ s.working.blindHold * 3906

/-- R14, R113: a claim of the target lane meets the downstream check window, or stands while the geometry is absent. -/
def downstreamMet (s : State) (target : Lane) (tRef : Time) (pace : Nat) : Prop :=
  s.working.gd ≠ 0 ∧ ∃ c ∈ s.grants.claims, c.lane = target ∧ ∀ n, s.occ.down.geometry = some n →
    overlap
      { start := Time.minus (Time.plus tRef (travel (s.working.gd + n.ds) pace)) s.working.guard,
        stop := Time.plus (Time.plus tRef (travel (s.working.gd + n.ds + n.dm + s.working.lc) pace)) s.working.guard }
      c.window

/-- R122: checks 12 to 15 taken again for a PROVISIONAL grant. -/
def recheckMet (s : State) (l : Lane) (g : Grant) : Prop :=
  followingMet s l [g.code] ⟨g.throwAt, g.releaseAt⟩ ∨ targetMet s g.target g.window (some l) ∨ blindMet s g.target s.now ∨
  downstreamMet s g.target g.tRef g.pace.ticks

/-- R72, R96: the car is bound to the handset and asks: by the handset's latched request, failing that by its order. -/
def asks (s : State) (code : CarCode) (h : HandsetAddr) (q : CarRequest) : Prop :=
  ∃ car, Car.ofCode code = some car ∧ (s.bind.entries.get car).handset = some h ∧
    ((∃ e r, handsetEntry s h = some e ∧ e.request = some r ∧ q = { dir := r.dir, used := .press r.count }) ∨
      ((∀ e, handsetEntry s h = some e → e.request = none) ∧
        ∃ n, (s.bind.entries.get car).standing = .order q.dir n ∧ q.used = .order q.dir))

/-- R99 to R101: the car's blade time lies in the hold of the blade of its lane in, which is THROWN or ARMED, or REST under a
PROVISIONAL grant. -/
def bladeMeets (s : State) (r : PassageRecord) (x : BladeState) (d : Dir) (target : Lane) (hold : Window) : Prop :=
  let b := s.blades.get r.lane
  s.working.sides.get r.lane = some d ∧ Lane.beside r.lane d = some target ∧ b.state = x ∧
  (((x = .thrown ∨ x = .armed) ∧ b.throwAt = some hold.start ∧ b.releaseAt = some hold.stop) ∨
    (x = .rest ∧ ∃ g, s.grants.slots.get r.lane = some g ∧ g.state = .provisional ∧ g.throwAt = hold.start ∧
      g.releaseAt = hold.stop)) ∧
  within hold (Time.plus r.tRef (travel s.working.ds r.pace.ticks))

/-- R102: the car requests the blade's direction and passes the sharing checks. -/
def sharing (s : State) (r : PassageRecord) (d : Dir) (target : Lane) (hold : Window) : Prop :=
  (∃ h q, asks s r.code h q ∧ q.dir = d) ∧ s.occ.holds.get r.lane = none ∧ s.occ.holds.get target = none ∧
  (s.gates.get target).state = .idle ∧
  ¬followingMet s r.lane (r.code :: ((s.grants.slots.get r.lane).map (·.code)).toList) hold ∧
  ¬targetMet s target (zoneWindow s.working r.tRef r.pace.ticks) (some r.lane) ∧ ¬blindMet s target r.handover

/-- The outcome of a list of checks in order: that of the first one that answers, and TAKEN when none does. -/
def firstAnswer : List (Prop × Outcome) → Outcome → Prop
  | [], o => o = .taken
  | (p, x) :: rest, o => (p → o = x) ∧ (¬p → firstAnswer rest o)

/-- R105 to R113: checks 7 to 15 for a request in direction `d`, on the state after any grant action of check 3. -/
def checks (s : State) (r : PassageRecord) (d : Dir) (target : Lane) (withdrawn : Prop) : List (Prop × Outcome) :=
  let b := s.blades.get r.lane
  let hold := holdWindow s.working r.tRef r.pace.ticks
  [(b.state = .absent ∨ b.state = .failed ∨ s.working.sides.get r.lane ≠ some d, .kept),
   (s.occ.holds.get r.lane ≠ none ∨ s.occ.holds.get target ≠ none, .laneHeld),
   ((s.gates.get target).state ≠ .idle, .blockedTarget),
   (b.state ≠ .rest ∨ (∃ t, b.coolingEnd = some t ∧ Time.before hold.start t = true) ∨ s.grants.slots.get r.lane ≠ none ∨
      withdrawn, .bladeBusy),
   (Time.before hold.start (Time.plus r.handover 16) = true, .tooClose),
   (followingMet s r.lane [r.code] hold, .following),
   (targetMet s target (zoneWindow s.working r.tRef r.pace.ticks) none, .blockedTarget),
   (blindMet s target r.handover, .blind),
   (downstreamMet s target r.tRef r.pace.ticks, .blockedDownstream)]

/-- R103 to R114: checks 4 to 16, the request read from `s` and the collections from `u`. -/
def laterOutcome (s u : State) (r : PassageRecord) (withdrawn : Prop) (d : Decided) : Prop :=
  ((∀ h q, ¬asks s r.code h q) → d = { outcome := .straight, laneOut := r.lane }) ∧
  ∀ h q, asks s r.code h q →
    (Lane.besideWithin u.working.lanes r.lane q.dir = none → d = { outcome := .noLane, laneOut := r.lane }) ∧
    ∀ target, Lane.besideWithin u.working.lanes r.lane q.dir = some target →
      firstAnswer (checks u r q.dir target withdrawn) d.outcome ∧
      d.laneOut = if d.outcome = .taken then target else r.lane

/-! ## The replay in words (R63) -/

/-- R63: the entries from a place on whose stamp is above 0, in order of code. -/
def dueEntries (t : CodeTable Binding) (start : Car) : List Car :=
  Car.all.filter (fun c => decide (start.val ≤ c.val) && decide ((t.get c).stamp ≠ 0))

/-- R63: the replayed BIND frame of an entry, as the next frame handed in after `n` others. -/
def replayFrame (s : State) (n : Nat) (c : Car) : TxFrame :=
  { id := s.line.nextId + n, level := 2, originator := s.working.address,
    body := .bind { code := c.code, handset := (s.bind.entries.get c).handset.getD 0, stamp := (s.bind.entries.get c).stamp,
                    origin := (s.bind.entries.get c).origin, kept := (s.bind.entries.get c).kept },
    deadline := Time.plus s.now 7813, queued := s.now, owner := .bindingTable }

/-- R63: the state after the cursor has fed from a place: entries in order until the queue holds 4 frames or none is left. -/
def replayed (s : State) (start : Car) : State :=
  let room := 4 - s.line.queue.length
  let due := dueEntries s.bind.entries start
  let fed := due.take room
  { s with
    bind := { s.bind with cursor :=
      if room = 0 then some start else if due.length < room then none else fed.getLast?.bind Car.next }
    line := { s.line with
      queue := fed.zipIdx.foldl (fun q p => enterFrame (replayFrame s p.2 p.1) q) s.line.queue
      nextId := s.line.nextId + fed.length } }

/-- R63, R155: the state after the frame of a number has left the queue: a replay under way feeds on from its place. -/
def withoutFrame (s : State) (id : Nat) : State :=
  let gone : State := { s with line := { s.line with queue := s.line.queue.filter (fun f => decide (f.id ≠ id)) } }
  match s.bind.cursor with
  | some c => if s.line.queue.any (fun f => decide (f.id = id)) then replayed gone c else gone
  | none => gone

/-! ## Promptness -/

/-- Nothing that a stored time called for is overdue (R2: a time that has arrived is acted on at the first such tick): no
window end, hold, throw, release, cooling end or deadline lies before the present (log 2, DESIGN CHOICE). -/
def promptAt (s : State) : Bool :=
  let ahead (t : Time) : Bool := !Time.before t s.now
  s.occ.list.all (fun e => match e.stop with | .at t => ahead t | .open => true)
    && s.occ.approach.all (fun r => ahead r.window.stop) && s.grants.claims.all (fun c => ahead c.window.stop)
    && s.line.queue.all (fun f => ahead f.deadline)
    && Lane.all.all (fun l => (s.occ.holds.get l).all ahead
        && (s.grants.slots.get l).all (fun g => g.state != .provisional || ahead g.throwAt)
        && (let b := s.blades.get l
            (b.state != .armed || b.throwAt.all ahead) && (b.state != .thrown || b.releaseAt.all ahead)
              && (b.state != .cooling || b.coolingEnd.all ahead)))

end Sys2Proof.Safety
end

