-- ==== Sys2Proof/Certificates/Slice0/Obligations.lean ====
section
/-! DEFINITION. The statements for the provers, from the numbered rules of the spec. Their witnesses stand in Tests/Slice0.lean. -/

open Sys2Proof Sys2Proof.Machine Sys2Proof.Safety

/-! ## The machine as a whole -/

/-- A step runs the command at the front of the queue on the state with the rest of the queue; with nothing waiting the
state stays (the model's choice, log 3, DESIGN CHOICE). -/
def Obligations.StepTakesTheFrontCommand : Prop :=
  (∀ (c : Instr) (rest : List Instr) (s : State), step { s with pending := c :: rest } = exec c { s with pending := rest }) ∧
  ∀ s : State, s.pending = [] → step s = .next s

/-- No command touches the queue of waiting commands. That queue is the model's own, in no rule of the spec (log 3, DESIGN
CHOICE), and an entry to OFF keeps it too (log 29, DESIGN CHOICE). -/
def Obligations.CommandsLeaveTheWaitingQueue : Prop :=
  ∀ (c : Instr) (s t : State), exec c s = .next t → t.pending = s.pending

/-- R159: the node state changes only on the causes of its table; a change that goes on to OFF in the same event (R160, R168)
counts as one. -/
def Obligations.NodeStateMovesOnlyOnItsCauses : Prop :=
  ∀ (c : Instr) (s t : State), exec c s = .next t → t.node = s.node ∨ causes c s.node t.node = true

/-- The nonvolatile store changes only in the events of a save, of a configuration write, and of what cuts them (R66, R67,
R166). In OFF neither is in flight. That the bytes of a save or a write under way stand until its end is log 37's (DESIGN
CHOICE). -/
def Obligations.StoreChangesOnlyByItsOwners : Prop :=
  ∀ (c : Instr) (s t : State), (s.node = .off → s.sup.save = none ∧ s.sup.write = none) →
    writesStore c = false → exec c s = .next t → t.nv = s.nv

/-- The reset state meets every invariant stated below; it is the model's reading of reset (log 4, DESIGN CHOICE). -/
def Obligations.ResetMeetsTheInvariants : Prop :=
  collectionsKept State.reset ∧ timesNear State.reset ∧ listsOrdered State.reset ∧ bindingsKept State.reset ∧ bladesKept State.reset ∧ lineKept State.reset ∧
  gatesKept State.reset

/-- R37, R77, R85, R128, R154: every step keeps the capacities, and one record and one claim for an identified car. R85, R128:
while the times concerned lie within 2^29 ticks of the present, as every time of a prompt run does (log 2, DESIGN CHOICE),
every step keeps the approach list in order of predicted arrival and the claim table in order of window start. -/
def Obligations.CollectionsInvariantKept : Prop :=
  (∀ s t : State, collectionsKept s → step s = .next t → collectionsKept t) ∧
  ∀ s t : State, timesNear s → listsOrdered s → step s = .next t → listsOrdered t

/-- R53, R69: every step keeps a handset bound to one car at most, FREE entries without orders, and counts of 1 to 7. -/
def Obligations.BindingsInvariantKept : Prop :=
  ∀ s t : State, bindingsKept s → step s = .next t → bindingsKept t

/-- R117, R119, R132, R133, R136: every step keeps slots and blades in agreement: a blade is ARMED or THROWN only for a
COMMITTED grant and only in RUN, and a coil is driven only by a throw or a presence pulse. -/
def Obligations.BladesInvariantKept : Prop :=
  ∀ s t : State, bladesKept s → step s = .next t → bladesKept t

/-- R143, R154, R157: every step keeps the silent states silent and the queue in order of level, within a level in order of
queue time and, for frames of one tick, as they were handed in. The numbers that tell those apart are the model's own (log
22, DESIGN CHOICE), and that a queue time is held at an age of 2^20 is log 33's (DEDUCED). -/
def Obligations.LineInvariantKept : Prop :=
  ∀ s t : State, lineKept s → step s = .next t → lineKept t

/-- R18, R30, R31, R33: every step keeps the gates that do not work off, and the emitters dark but at a stall in SYNC or RUN. -/
def Obligations.GatesInvariantKept : Prop :=
  ∀ s t : State, gatesKept s → step s = .next t → gatesKept t

/-! ## Time and projected times (01) -/

/-- R2: the difference of two times, and the comparisons made through it. -/
def Obligations.TimesCompareThroughTheirDifference : Prop :=
  ∀ a b : Time,
    Time.diff a b = (if 2 ^ 31 ≤ (b.toNat + 2 ^ 32 - a.toNat) % 2 ^ 32
      then ((b.toNat + 2 ^ 32 - a.toNat) % 2 ^ 32 : Nat) - (2 ^ 32 : Int)
      else ((b.toNat + 2 ^ 32 - a.toNat) % 2 ^ 32 : Nat)) ∧
    -2147483648 ≤ Time.diff a b ∧ Time.diff a b ≤ 2147483647 ∧
    (Time.atOrBefore a b = true ↔ 0 ≤ Time.diff a b) ∧ (Time.before a b = true ↔ 0 < Time.diff a b) ∧
    (∀ k : Nat, Time.spanExceeds a b k = true ↔ k < Time.diff a b) ∧
    (∀ t, Window.contains ⟨a, b⟩ t = true ↔ Time.atOrBefore a t = true ∧ Time.atOrBefore t b = true) ∧
    (arrived b a = true ↔ a = b ∨ Time.before a b = true)

/-- R1, R3, R19, R33: a tick adds 1 to track time in every state but OFF, holds the age of every past stamp at 2^20 and leaves
future times as they are (capStamp), advances the gap timers outside blanking, and changes nothing else. That a gap timer
stands in IDLE and need not go past 24 is log 13's (DESIGN CHOICE; R19 lets it count on), which stamps are held is log 33's
(DEDUCED), and the field `dropped`, which a tick clears, is the model's own for the tie of R59 (log 36, DEDUCED). -/
def Obligations.TickAdvancesTrackTime : Prop :=
  (∀ now t : Time, (0 ≤ Time.diff t now → Time.diff (capStamp now t) now = min (Time.diff t now) 1048576) ∧
    (Time.diff t now < 0 → capStamp now t = t)) ∧
  (∀ s : State, s.node = .off → exec .tick s = .next s) ∧
  ∀ s : State, s.node ≠ .off → ∃ t, exec .tick s = .next t ∧
    t.now.toNat = (s.now.toNat + 1) % 2 ^ 32 ∧
    let held := capStamp t.now
    t.sup = { s.sup with
      cameOn := s.sup.cameOn.map held, debounce := s.sup.debounce.map held, heatReleased := s.sup.heatReleased.map held
      save := s.sup.save.map held, write := s.sup.write.map (fun w => { w with since := held w.since })
      load := match s.sup.load with
        | .reading a => .reading (held a) | .pulse l a => .pulse l (held a) | .rest l a => .rest l (held a)
        | .idle => .idle | .heldInReset => .heldInReset } ∧
    t.handsets = s.handsets.map (fun e => { e with
      lastHeard := held e.lastHeard, gestureTime := held e.gestureTime
      request := e.request.map (fun r => { r with latched := held r.latched }) }) ∧
    (∀ l, t.occ.lastClose.get l = (s.occ.lastClose.get l).map held) ∧
    t.occ = { s.occ with
      list := s.occ.list.map (fun e => { e with tRef := held e.tRef, start := held e.start })
      lastClose := t.occ.lastClose
      up := { s.occ.up with lastHeard := s.occ.up.lastHeard.map held }
      down := { s.occ.down with lastHeard := s.occ.down.lastHeard.map held } } ∧
    (∀ l, t.grants.slots.get l = (s.grants.slots.get l).map (fun g => { g with tRef := held g.tRef })) ∧
    (∀ l, t.blades.get l = { s.blades.get l with
      coolingEnd := (s.blades.get l).coolingEnd.map held, drivenSince := (s.blades.get l).drivenSince.map held }) ∧
    t.line = { s.line with
      queue := s.line.queue.map (fun f => { f with
        queued := held f.queued
        body := match f.body with
          | .pass p => .pass { p with tRef := held p.tRef }
          | b => b })
      beacon := s.line.beacon.map held } ∧
    (∀ l, t.gates.get l = { s.gates.get l with
      state := match (s.gates.get l).state with
        | .idle => .idle
        | .open p => .open { p with first := held p.first, last := held p.last }
        | .stall p c d => .stall { p with first := held p.first, last := held p.last } c d
      gap := if (s.gates.get l).state = .idle ∨ (s.gates.get l).blanking.isSome = true then (s.gates.get l).gap
        else min 24 ((s.gates.get l).gap + 1)
      dropped := none }) ∧
    t = { s with
      now := t.now, sup := t.sup, gates := t.gates, handsets := t.handsets, occ := t.occ
      grants := { s.grants with slots := t.grants.slots }, blades := t.blades, line := t.line }

/-- R6, R8, R9, R10, R13, R14, R15, R16: paces lie in 4 to 4095, travel time does not fall with distance, every projected
window stands in order, and a hold lasts 16 to 6250 ticks. -/
def Obligations.ProjectedTimesStandInOrder : Prop :=
  (∀ x y p : Nat, x ≤ y → travel x p ≤ travel y p ∧ travel y p ≤ 32767) ∧
  (∀ w d : Nat, 4 ≤ (Pace.ofDwell w d).ticks ∧ (Pace.ofDwell w d).ticks ≤ 4095) ∧
  (∀ (g : Working) (t : Time) (p : Nat) (n : Geometry), g.guard ≤ 255 → 16 ≤ g.lead → g.lead ≤ 255 →
    (zoneWindow g t p).ordered = true ∧ (upWindow g t p).ordered = true ∧ (downstreamWindow g n t p).ordered = true ∧
    16 ≤ Time.diff (holdWindow g t p).start (holdWindow g t p).stop ∧
    Time.diff (holdWindow g t p).start (holdWindow g t p).stop ≤ 6250) ∧
  ∀ (t : Time) (a b : Nat), a ≤ 32767 → b ≤ 32767 → (claimWindow t a b).ordered = true

/-- R16: two windows that stand in order near one time conflict exactly when they share a tick. -/
def Obligations.ConflictMeansASharedTick : Prop :=
  ∀ (o : Time) (v w : Window),
    (∀ x ∈ [v.start, v.stop, w.start, w.stop], -1073741824 < Time.diff o x ∧ Time.diff o x < 1073741824) →
    v.ordered = true → w.ordered = true →
    (v.conflicts w = true ↔ ∃ t, v.contains t = true ∧ w.contains t = true)

/-! ## Lane gates (02) -/

/-- R18, R19, R33: two agreeing samples settle the level of a gate that has come on, without an edge; anything else, and any
sample pair that is no edge, leaves only the previous sample; a gate that is blanking takes no sample and no edge at all. The
field `dropped` is the model's own: it is present only for the tie of R59, in the tick in which a run's next notice began
blanking, and NoticeRunRepeats says what an edge does then (log 36, DEDUCED). -/
def Obligations.LevelSettlesAndNoiseIsRejected : Prop :=
  (∀ (l : Lane) (x : Bool) (s : State), gateWorks s l = true → (s.gates.get l).level = none →
    exec (.levelSettled l x x) s = .next (s.setGate l { s.gates.get l with level := some x, previous := some x })) ∧
  (∀ (l : Lane) (x : Bool) (s : State), gateWorks s l = true → (s.gates.get l).level = none →
    exec (.levelSettled l x (!x)) s = .next (s.setGate l { s.gates.get l with previous := some (!x) })) ∧
  (∀ (l : Lane) (x y z : Bool) (s : State), gateWorks s l = true → (s.gates.get l).blanking = none →
    (s.gates.get l).level = some z → x ≠ y ∨ y = z →
    exec (.irEdge l x y) s = .next (s.setGate l { s.gates.get l with previous := some y })) ∧
  ∀ (l : Lane) (x y : Bool) (s : State), (s.gates.get l).blanking.isSome = true → (s.gates.get l).dropped = none →
    exec (.irEdge l x y) s = .next s

/-- R19, R23, R24: an accepted edge in IDLE opens a passage with the decoder in HUNT; in OPEN it moves the last edge, and a
valid frame that it completes updates the code by the table of R23. -/
def Obligations.AcceptedEdgesMakeAPassage : Prop :=
  (∀ (l : Lane) (x : Bool) (s : State), gateWorks s l = true → (s.gates.get l).blanking = none →
    (s.gates.get l).level = some (!x) → (s.gates.get l).state = .idle →
    exec (.irEdge l x x) s = .next (s.setGate l { s.gates.get l with
      level := some x, previous := some x, decoder := .hunt, gap := 0,
      state := .open { first := s.now, last := s.now, code := .absent, frames := 0 } })) ∧
  ∀ (l : Lane) (x : Bool) (s : State) (p : Passage), gateWorks s l = true → (s.gates.get l).blanking = none →
    (s.gates.get l).level = some (!x) → (s.gates.get l).state = .open p →
    ∃ q : Passage, exec (.irEdge l x x) s = .next (s.setGate l { s.gates.get l with
        level := some x, previous := some x, gap := 0,
        decoder := ((s.gates.get l).decoder.edge x (Time.diff p.last s.now)).1, state := .open q }) ∧
      q.first = p.first ∧ q.last = s.now ∧
      (frameCode ((s.gates.get l).decoder.edge x (Time.diff p.last s.now)).2 = none → q.code = p.code ∧ q.frames = p.frames) ∧
      ∀ c, frameCode ((s.gates.get l).decoder.edge x (Time.diff p.last s.now)).2 = some c →
        (p.code = .absent → q.code = .read c ∧ q.frames = 1) ∧
        (p.code = .read c → q.code = .read c ∧ q.frames = min 255 (p.frames + 1)) ∧
        (∀ d, d ≠ c → p.code = .read d → q.code = .conflicting ∧ q.frames = 0) ∧
        (p.code = .conflicting → q.code = .conflicting ∧ q.frames = 0)

/-- R27, R54, R59, R79: an accepted edge in STALL moves the last edge; a valid frame that it completes updates the stall code by
the table of R27, and the decoded code follows when the frames seen reach 2. A new decoded code is told (codeTold): the
lane's open STALL entry takes it, and in SYNC and RUN the gate's notice run ends when it is another car's, and then the
local bind condition is judged. That the two are told in this order is log 19's (DEDUCED). -/
def Obligations.EdgeInAStallNamesTheCar : Prop :=
  ∀ (l : Lane) (x : Bool) (s : State) (p : Passage) (sc : Option StallCode) (dec : Option CarCode),
    gateWorks s l = true → (s.gates.get l).blanking = none → (s.gates.get l).level = some (!x) →
    (s.gates.get l).state = .stall p sc dec →
    ∃ (t : State) (sc' : Option StallCode) (dec' : Option CarCode), exec (.irEdge l x x) s = .next t ∧
      (t.gates.get l).state = .stall { p with last := s.now } sc' dec' ∧ (t.gates.get l).level = some x ∧
      (frameCode ((s.gates.get l).decoder.edge x (Time.diff p.last s.now)).2 = none → sc' = sc ∧ dec' = dec) ∧
      (∀ c, frameCode ((s.gates.get l).decoder.edge x (Time.diff p.last s.now)).2 = some c →
        (∀ y, sc = some y → y.code = c → sc' = some { code := c, frames := min 255 (y.frames + 1) }) ∧
        ((∀ y, sc = some y → y.code ≠ c) → sc' = some { code := c, frames := 1 }) ∧
        (∀ y, sc' = some y → dec' = if y.frames = 2 then some c else dec)) ∧
      (dec' ≠ dec → ∀ e ∈ t.occ.list, e.kind = .stall → e.lane = l → e.stop = .open → some e.code = dec') ∧
      (dec' = dec → t = { s with gates := t.gates }) ∧
      (let w : State := { s with gates := s.gates.set l { s.gates.get l with
          level := some x, previous := some x, gap := 0, state := .stall { p with last := s.now } sc' dec',
          decoder := ((s.gates.get l).decoder.edge x (Time.diff p.last s.now)).1 } }
       t = if dec' = dec then w else codeTold w l (dec'.getD 0)) ∧
      t = { s with
        gates := s.gates.set l (t.gates.get l)
        handsets := t.handsets
        bind := { s.bind with entries := t.bind.entries, unsaved := t.bind.unsaved, runs := t.bind.runs }
        occ := { s.occ with list := t.occ.list }
        line := { s.line with queue := t.line.queue, nextId := t.line.nextId } }

/-- R20, R21, R22: from any place, a sync mark and then eight marks and spaces in class, the marks being a car code and its
complement, are read as that code; and eight bits are valid exactly when they are a code that is not 0 and its complement. -/
def Obligations.CarCodeFrameIsRead : Prop :=
  (∀ (c : CarCode) (d : Decoder) (sync : Int) (space mark : Nat → Int), c ≠ 0 → 10 ≤ sync → sync ≤ 14 →
    (∀ i, i < 8 → 1 ≤ space i ∧ space i ≤ 3) →
    (∀ i, i < 8 → if (bitsOf c ++ bitsOf (~~~c)).getD i false then 4 ≤ mark i ∧ mark i ≤ 6 else 1 ≤ mark i ∧ mark i ≤ 3) →
    let r := (List.range 8).foldl (fun (r : Decoder × Option (List Bool)) i => (r.1.edge true (space i)).1.edge false (mark i))
      (d.edge false sync)
    r.1 = .hunt ∧ frameCode r.2 = some c) ∧
  ∀ (bits : List Bool) (c : CarCode), validCode bits = some c ↔ c ≠ 0 ∧ bits = bitsOf c ++ bitsOf (~~~c)

/-- R24, R25, R29, R78, R88, R94: a passage of under 8 ticks is discarded (that its decoder returns to HUNT is log 40's, DESIGN
CHOICE); any other makes a PASSAGE entry with the zone
window of R9 and sets the lane's last close. One whose code was not read is reported STRAIGHT in RUN and NOT_READY in SYNC
where its lane has no blade (R97, R103, R116), in a full queue in the room of a dropped frame (R156), and nothing else changes. -/
def Obligations.PassageCloseMakesItsRecord : Prop :=
  (∀ (l : Lane) (s : State) (p : Passage), (s.gates.get l).state = .open p → 24 ≤ (s.gates.get l).gap →
    Time.diff p.first p.last < 8 →
    exec (.passageClose l) s = .next (s.setGate l { s.gates.get l with state := .idle, decoder := .hunt })) ∧
  (∀ (l : Lane) (s : State) (p : Passage), (s.gates.get l).state = .open p → 24 ≤ (s.gates.get l).gap →
    8 ≤ Time.diff p.first p.last → s.node = .sync ∨ s.node = .run ∨ s.node = .fault → s.occ.list.length < 23 →
    ∃ t, exec (.passageClose l) s = .next t ∧
      t.gates = s.gates.set l { s.gates.get l with state := .idle, decoder := .hunt } ∧
      t.occ.lastClose = s.occ.lastClose.set l (some s.now) ∧
      (∃ e ∈ t.occ.list, e.kind = .passage ∧ e.lane = l ∧ e.code = p.code.reported ∧ e.tRef = p.last ∧
        e.pace = Pace.ofDwell s.working.w (Time.diff p.first p.last).toNat ∧
        e.start = (zoneWindow s.working p.last e.pace.ticks).start ∧
        e.stop = .at (zoneWindow s.working p.last e.pace.ticks).stop) ∧
      (p.code.reported ≠ 0 → t.occ.approach = s.occ.approach.filter (fun r => decide (r.code ≠ p.code.reported))) ∧
      t = { s with
        gates := t.gates
        handsets := t.handsets
        bind := { s.bind with entries := t.bind.entries, cursor := t.bind.cursor }
        occ := { s.occ with
          list := t.occ.list, holds := t.occ.holds, lastClose := t.occ.lastClose, approach := t.occ.approach }
        grants := { s.grants with slots := t.grants.slots }
        blades := t.blades
        line := { s.line with queue := t.line.queue, nextId := t.line.nextId } }) ∧
  ∀ (l : Lane) (s : State) (p : Passage), (s.gates.get l).state = .open p → 24 ≤ (s.gates.get l).gap →
    8 ≤ Time.diff p.first p.last → p.code = .absent ∨ p.code = .conflicting → s.node = .sync ∨ s.node = .run →
    (s.blades.get l).state = .absent → s.occ.list.length < 24 →
    arrived s.now (Time.plus p.last 3125) = false →
    let pace := Pace.ofDwell s.working.w (Time.diff p.first p.last).toNat
    let w := zoneWindow s.working p.last pace.ticks
    let notice : PassBody :=
      { code := 0, laneIn := l, laneOut := l, outcome := if s.node = .sync then .notReady else .straight, pressed := none,
        order := none, pace := pace, tRef := p.last, startOffset := startOffset s.working pace.ticks,
        endOffset := endOffset s.working pace.ticks }
    ∃ q, queuedIn { id := s.line.nextId, level := 0, originator := s.working.address, body := .pass notice,
                    deadline := Time.plus p.last 3125, queued := s.now, owner := .planner } s.line.queue q ∧
    exec (.passageClose l) s = .next { s with
      gates := s.gates.set l { s.gates.get l with state := .idle, decoder := .hunt }
      occ := { s.occ with
        list := s.occ.list ++ [{ code := 0, lane := l, kind := .passage, tRef := p.last, pace := pace, start := w.start,
                                 stop := .at w.stop, link := none }]
        lastClose := s.occ.lastClose.set l (some s.now)
        approach := s.occ.approach.eraseP (fun a => decide (a.code = 0) && decide (a.lane = l)
          && Time.atOrBefore a.arrival w.stop) }
      line := { s.line with queue := q, nextId := s.line.nextId + 1 } }

/-- R26, R27, R54, R59, R79, R98: a passage open for 8192 ticks is declared a stall: the gate is in STALL with the passage's
code, the lane gets an open STALL entry of pace 4095, and in SYNC and RUN the record is decided and one notice is queued;
where two frames were seen the decoded code is then told (codeTold), which ends another car's notice run and judges the
local bind condition. That the record is handed on before the code is told is log 19's (DEDUCED). -/
def Obligations.StallDeclarationHoldsTheLane : Prop :=
  ∀ (l : Lane) (s : State) (p : Passage), (s.gates.get l).state = .open p → arrived s.now (Time.plus p.first 8192) = true →
    s.node = .sync ∨ s.node = .run ∨ s.node = .fault →
    ∃ t, exec (.stallDeclaration l) s = .next t ∧
      (∀ c, p.code = .read c → (t.gates.get l).state =
        .stall p (some { code := c, frames := p.frames }) (if 2 ≤ p.frames then some c else none)) ∧
      (p.code = .absent ∨ p.code = .conflicting → (t.gates.get l).state = .stall p none none) ∧
      (∃ e ∈ t.occ.list, e.kind = .stall ∧ e.lane = l ∧ e.code = p.code.reported ∧ e.tRef = s.now ∧ e.pace.ticks = 4095 ∧
        e.start = (zoneWindow s.working s.now 4095).start ∧ e.stop = .open) ∧
      t.occ.lastClose = s.occ.lastClose.set l (some s.now) ∧
      (s.node ≠ .fault → s.line.queue.length < 7 → ∃ f ∈ t.line.queue, f.deadline = Time.plus s.now 3125 ∧
        ∃ n, f.body = .pass n ∧ n.code = p.code.reported ∧ n.laneIn = l ∧ n.laneOut = l ∧ n.pressed = none ∧
          n.outcome = if s.node = .sync then .notReady else .stalled) ∧
      (let sc : Option StallCode := match p.code with
         | .read c => some { code := c, frames := p.frames }
         | .absent | .conflicting => none
       let dec : Option CarCode := sc.bind (fun x => if 2 ≤ x.frames then some x.code else none)
       let u : State := { s with gates := s.gates.set l { s.gates.get l with state := .stall p sc dec } }
       let r : PassageRecord :=
         { lane := l, code := p.code.reported, tFirst := p.first, tRef := s.now, dwell := 8192,
           pace := { ticks := 4095, fast := false, slow := false }, kind := .stalled, handover := s.now }
       let v := if s.node = .fault then takeRecord u r else decideRecord (takeRecord u r) r
       t = match dec with
         | some c => codeTold v l c
         | none => v) ∧
      t = { s with
        gates := t.gates
        handsets := t.handsets
        bind := { s.bind with entries := t.bind.entries, unsaved := t.bind.unsaved, runs := t.bind.runs }
        occ := { s.occ with
          list := t.occ.list, holds := t.occ.holds, lastClose := t.occ.lastClose, approach := t.occ.approach }
        line := { s.line with queue := t.line.queue, nextId := t.line.nextId } }

/-- R28, R33, R34, R54, R59, R79: a stall ends after 24 ticks outside blanking without an edge: the gate is IDLE and its
emitter stopped, with a notice in progress its blanking too, the lane's open STALL entry ends 32767 ticks on, and in SYNC and
RUN the gate's notice run ends and then the local bind condition is judged. -/
def Obligations.StallEndStopsTheEmitter : Prop :=
  ∀ (l : Lane) (s : State), (s.gates.get l).isStalled = true → 24 ≤ (s.gates.get l).gap →
    ∃ t, exec (.stallEnd l) s = .next t ∧
      t.gates.get l = { s.gates.get l with
        state := .idle, decoder := .hunt, sending := none, waiting := none,
        blanking := if (s.gates.get l).sending.isSome then none else (s.gates.get l).blanking } ∧
      t.occ.list = s.occ.list.map (fun e => if e.kind = .stall ∧ e.lane = l ∧ e.stop = .open
        then { e with stop := .at (Time.plus s.now 32767) } else e) ∧
      (s.node.live = true → t.bind.runs.get l = none) ∧
      (let u : State := { s with
         gates := s.gates.set l { s.gates.get l with
           state := .idle, decoder := .hunt, sending := none, waiting := none,
           blanking := if (s.gates.get l).sending.isSome then none else (s.gates.get l).blanking }
         occ := { s.occ with list := s.occ.list.map (fun e => if e.kind = .stall ∧ e.lane = l ∧ e.stop = .open
           then { e with stop := .at (Time.plus s.now 32767) } else e) } }
       t = if s.node = .sync ∨ s.node = .run then judgeLocal { u with bind := { u.bind with runs := s.bind.runs.set l none } }
         else u) ∧
      t = { s with
        gates := t.gates
        handsets := t.handsets
        bind := { s.bind with entries := t.bind.entries, unsaved := t.bind.unsaved, runs := t.bind.runs }
        occ := { s.occ with list := t.occ.list }
        line := { s.line with queue := t.line.queue, nextId := t.line.nextId } }

/-- R32: a notice is a sync mark of 12 ticks and then, each after a space of 2 ticks, 24 marks of 2 or 5 ticks: the car code,
the handset address and the complement of the code, most significant first; it lasts 108 to 180 ticks, less than the
repeat of 781. -/
def Obligations.NoticeLightCarriesItsFields : Prop :=
  ∀ n : Notice,
    n.light = (true, 12) :: (n.marks.map (fun long => [(false, 2), (true, if long then 5 else 2)])).flatten ∧
    n.marks = (List.range 4).map (fun i => n.code.getLsbD (3 - i)) ++ (List.range 16).map (fun i => n.handset.getLsbD (15 - i))
      ++ (List.range 4).map (fun i => !n.code.getLsbD (3 - i)) ∧
    n.ticks = (n.light.map (·.2)).sum ∧ 108 ≤ n.ticks ∧ n.ticks ≤ 180 ∧ n.ticks < Config.noticeInterval

/-- R31, R33: a notice sent in full leaves the emitter IDLE, or starts the pending notice with its blanking; blanking ends
after the last notice, and the accepted level stands. That the pending notice starts in the tick in which the command is
taken, and its length counts from there, is the model's choice (log 28, DESIGN CHOICE). -/
def Obligations.EmitterFinishesItsNotices : Prop :=
  (∀ (l : Lane) (s : State) (d : Sending), (s.gates.get l).sending = some d → arrived s.now d.ends = true →
    (s.gates.get l).waiting = none →
    exec (.noticeComplete l) s = .next (s.setGate l { s.gates.get l with sending := none })) ∧
  (∀ (l : Lane) (s : State) (d : Sending) (n : Notice), (s.gates.get l).sending = some d → arrived s.now d.ends = true →
    (s.gates.get l).waiting = some n →
    exec (.noticeComplete l) s = .next (s.setGate l { s.gates.get l with
      sending := some { notice := n, ends := Time.plus s.now n.ticks }, waiting := none,
      blanking := some (Time.plus (Time.plus s.now n.ticks) 4), decoder := .hunt })) ∧
  ∀ (l : Lane) (s : State) (b : Time), (s.gates.get l).sending = none → (s.gates.get l).blanking = some b →
    arrived s.now b = true → exec (.blankingEnd l) s = .next (s.setGate l { s.gates.get l with blanking := none })

/-! ## Handset port (03) -/

/-- R35, R36, R176: characters on the line, a start space, the data bits lowest first and a stop bit each, are gathered into
runs: one that follows by 4 bit times of mark or less joins the run, one by 5 or more (2 ticks in all) opens the next, a
run closes 15 bit times after its last character, and after a framing error a character begins only once the line has read
as a mark. A closed run is an accepted frame exactly when it is five well-framed characters with a right check byte and an
address of 1 to 65534. Levels that close no run, a run that fails a test, one of another length in ticks, one begun before
the port came on, and a closed run while the port is off change nothing. The bit times are log 14's (DESIGN CHOICE). -/
def Obligations.HandsetRunIsTested : Prop :=
  let line (cs : List SerialChar) : List Bool := cs.flatMap SerialChar.levels
  let idle (n : Nat) : List Bool := List.replicate n true
  let framed (cs : List SerialChar) : Prop := ∀ c ∈ cs, c.stopOk = true
  (∀ (c : SerialChar), c.levels = [false, c.data.getLsbD 0, c.data.getLsbD 1, c.data.getLsbD 2, c.data.getLsbD 3,
    c.data.getLsbD 4, c.data.getLsbD 5, c.data.getLsbD 6, c.data.getLsbD 7, c.stopOk]) ∧
  (∀ (cs : List SerialChar) (n : Nat), cs ≠ [] → framed cs.dropLast →
    closedRun (true :: line cs ++ idle n) = if n = 15 then some { chars := cs, bits := 10 * cs.length + 15 } else none) ∧
  (∀ (as bs : List SerialChar) (gap : Nat), as ≠ [] → bs ≠ [] → framed as → framed bs →
    closedRun (true :: line as ++ idle gap ++ line bs ++ idle 15) = some
      (if gap ≤ 4 then { chars := as ++ bs, bits := 10 * as.length + gap + 10 * bs.length + 15 }
       else { chars := bs, bits := 10 * bs.length + 15 })) ∧
  (∀ (a b : Byte) (n : Nat), n ≤ 3 →
    closedRun (true :: SerialChar.levels ⟨a, false⟩ ++ List.replicate n false ++ true :: SerialChar.levels ⟨b, true⟩ ++ idle 15) =
      some { chars := [⟨a, false⟩, ⟨b, true⟩], bits := n + 36 }) ∧
  (∀ (n : Nat) (levels : List Bool), closedRun (List.replicate n false ++ levels) = closedRun levels) ∧
  (∀ (chars : List SerialChar) (f : HandsetFrame), handsetFrameOf chars = some f ↔
    ∃ a b c d e : Byte, chars = [⟨a, true⟩, ⟨b, true⟩, ⟨c, true⟩, ⟨d, true⟩, ⟨e, true⟩] ∧ e = ~~~(a ^^^ b ^^^ c ^^^ d) ∧
      f.address = a ++ b ∧ f.address ≠ 0 ∧ f.address ≠ 65535 ∧
      f.pressCount = c.extractLsb' 4 4 ∧ f.pressDir = (if c.getLsbD 3 then .right else .left) ∧
      f.gesture = (if c.getLsbD 2 then (if c.getLsbD 1 then .release else .bindKept)
        else (if c.getLsbD 1 then .bind else .none)) ∧
      f.programCount = d.extractLsb' 6 2 ∧ f.programDir = (if d.getLsbD 5 then .right else .left) ∧
      f.programValue = (d.extractLsb' 2 3).toNat) ∧
  ∀ (levels : List Bool) (span : Nat) (s : State),
    (closedRun levels = none ∨
      (∃ r, closedRun levels = some r ∧ (handsetFrameOf r.chars = none ∨
        (span ≠ 625 * r.bits / 4608 ∧ span ≠ (625 * r.bits + 4607) / 4608))) ∨
      (∃ t, s.sup.cameOn = some t ∧ Time.diff t s.now < span) ∨ (s.node ≠ .sync ∧ s.node ≠ .run)) →
    exec (.handsetFrame levels span) s = .next s

/-- R38: a frame from an unknown address enters the handset with its counts and its gesture, no request and no program, last in
the table. With room nothing else goes; from a full table the unbound entry heard longest ago goes, of those the one with
the lowest address, and the others stay. Where the entry that goes, or the new one, holds a gesture, the local bind
condition is judged (R45, R54), and else nothing more changes; that it is judged once at the eviction and again after the new
entry is made, where both hold one, is the model's reading (log 20, DEDUCED). -/
def Obligations.FirstSightingEntersTheHandset : Prop :=
  let entered (s : State) (f : HandsetFrame) : State :=
    let u : State := { s with handsets := s.handsets ++ [
      { address := f.address, lastHeard := s.now, pressCount := f.pressCount, programCount := f.programCount,
        gesture := f.gesture, gestureTime := s.now, fresh := decide (f.gesture ≠ .none), resync := false, request := none }] }
    if f.gesture = .none then u else judgeLocal u
  (∀ (levels : List Bool) (span : Nat) (s : State) (f : HandsetFrame), frameHeard s levels span f →
    (∀ x ∈ s.handsets, x.address ≠ f.address) → s.handsets.length < 16 →
    exec (.handsetFrame levels span) s = .next (entered s f)) ∧
  ∀ (levels : List Bool) (span : Nat) (s : State) (f : HandsetFrame), frameHeard s levels span f →
    (∀ x ∈ s.handsets, x.address ≠ f.address) → s.handsets.length = 16 →
    (∃ x ∈ s.handsets, ∀ c, (s.bind.entries.get c).handset ≠ some x.address) →
    ∃ v ∈ s.handsets, (∀ c, (s.bind.entries.get c).handset ≠ some v.address) ∧
      (∀ x ∈ s.handsets, (∀ c, (s.bind.entries.get c).handset ≠ some x.address) →
        Time.diff x.lastHeard s.now < Time.diff v.lastHeard s.now ∨
        (Time.diff x.lastHeard s.now = Time.diff v.lastHeard s.now ∧ v.address.toNat ≤ x.address.toNat)) ∧
      let w : State := { s with handsets := s.handsets.filter (fun x => decide (x.address ≠ v.address)) }
      exec (.handsetFrame levels span) s = .next (entered (if v.freshGesture = .none then w else judgeLocal w) f)

/-- R40, R41, R45, R46, R70, R71: a frame from a known handset refreshes it; unless the entry is resynchronised, a changed press
count latches a request and cancels the order of its car, and then a changed program count sets or cancels that order.
Where the fresh gesture begins, changes or ends the local bind condition is then judged (R54), and else nothing more
changes. -/
def Obligations.KnownFrameTakesPressThenProgram : Prop :=
  ∀ (levels : List Bool) (span : Nat) (s : State) (f : HandsetFrame) (e : HandsetEntry), frameHeard s levels span f →
    e ∈ s.handsets → e.address = f.address → (∀ x ∈ s.handsets, x.address = f.address → x = e) →
    let pressed := !e.resync && decide (f.pressCount ≠ e.pressCount)
    let programs := !e.resync && decide (f.programCount ≠ e.programCount)
    let request : Option Request :=
      if pressed then some { dir := f.pressDir, count := f.pressCount, latched := s.now } else e.request
    let entry : HandsetEntry :=
      { address := f.address, lastHeard := s.now, pressCount := f.pressCount, programCount := f.programCount,
        gesture := f.gesture, gestureTime := if f.gesture = .none then e.gestureTime else s.now,
        fresh := decide (f.gesture ≠ .none), resync := false, request := request }
    let program : Standing := if f.programValue = 0 then .empty else .order f.programDir f.programValue
    let standing (x : Standing) : Standing := if programs then program else if pressed then .empty else x
    let u : State := { s with
      handsets := s.handsets.map (fun x => if x.address = f.address then entry else x)
      bind := match boundCar s.bind.entries f.address with
        | some c => { s.bind with entries := s.bind.entries.set c { s.bind.entries.get c with
            standing := standing (s.bind.entries.get c).standing } }
        | none => s.bind }
    exec (.handsetFrame levels span) s = .next (if e.freshGesture = f.gesture then u else judgeLocal u)

/-- R39, R45: an unbound entry unheard for 31250 ticks is removed with its request; a gesture ends 1563 ticks after its last
frame; where a fresh gesture ends by it the local bind condition is judged (R54), and else, or where no stall is coded,
nothing more changes. -/
def Obligations.HandsetTimersRun : Prop :=
  (∀ (a : HandsetAddr) (s : State) (e : HandsetEntry), handsetEntry s a = some e → s.node.live = true → isBound s a = false →
    arrived s.now (Time.plus e.lastHeard 31250) = true →
    let u : State := { s with handsets := s.handsets.filter (fun x => decide (x.address ≠ a)) }
    exec (.handsetStaleRemoval a) s = .next (if e.freshGesture = .none then u else judgeLocal u)) ∧
  ∀ (a : HandsetAddr) (s : State) (e : HandsetEntry), handsetEntry s a = some e → e.freshGesture ≠ .none →
    arrived s.now (Time.plus e.gestureTime 1563) = true →
    let u : State := { s with handsets := s.handsets.map (fun x => if x.address = a then { x with fresh := false } else x) }
    exec (.gestureLapse a) s = .next (judgeLocal u) ∧
    (codedStalls s = [] → exec (.gestureLapse a) s = .next u) ∧
    (∀ x ∈ (judgeLocal u).handsets, x.address = a → x.freshGesture = .none) ∧
    judgeLocal u = { s with
      gates := (judgeLocal u).gates
      handsets := (judgeLocal u).handsets
      bind := { s.bind with
        entries := (judgeLocal u).bind.entries, unsaved := (judgeLocal u).bind.unsaved, runs := (judgeLocal u).bind.runs }
      line := { s.line with queue := (judgeLocal u).line.queue, nextId := (judgeLocal u).line.nextId } }

/-- R42: a latched request is removed at its latch time plus the request hold; its entry and its press count stay; and an expiry
that finds no request changes nothing. -/
def Obligations.LatchedRequestExpires : Prop :=
  ∀ (a : HandsetAddr) (s : State) (e : HandsetEntry), handsetEntry s a = some e →
    (e.request = none → exec (.requestExpiry a) s = .next s) ∧
    ∀ r, e.request = some r → arrived s.now (Time.plus r.latched (s.working.requestHold * 3906)) = true →
      exec (.requestExpiry a) s = .next { s with
        handsets := s.handsets.map (fun x => if x.address = a then { x with request := none } else x) }

/-! ## Binding table (04, 05) -/

/-- R39, R51, R52, R53, R61, R91, R153: a delivered BIND is a proposal; a newer one sets its car's entry and frees every other
entry of its handset, and any other, and a discarded one, does step 1 of R153 only (heardOnly). The entry of a handset that is
so left bound to no car and is stale goes at once (handsetsRebound; log 21, DEDUCED). R54 to R58, R60: the judgement of the
local bind condition makes a proposal exactly for one coded stall and one gesturing handset: a bind not held yet or a release
of the own handset, with one stamp more and the node's own origin; a newer one is applied, queues its live BIND, starts a
notice run at the stall's gate and asks its emitter for the first notice; and any other judgement changes nothing. -/
def Obligations.NewerProposalIsApplied : Prop :=
  (∀ (bits : List Bool) (phase : BitVec 3) (s : State) (f : GoodFrame), delivered s bits .bind f → s.node.live = true →
    ((decodeBind (payloadWord 48 f.payload)).proposal = none → exec (.bindReceived bits phase) s = .next (heardOnly s f)) ∧
    ∀ p, (decodeBind (payloadWord 48 f.payload)).proposal = some p →
      let b := s.bind.entries.get p.car
      let newer := b.stamp.toNat < p.stamp.toNat ∨ (p.stamp = b.stamp ∧ p.origin.toNat < b.origin.toNat)
      (¬newer → exec (.bindReceived bits phase) s = .next (heardOnly s f)) ∧
      (newer → ∃ t, exec (.bindReceived bits phase) s = .next t ∧
        t.bind.entries.get p.car = { handset := p.handset, stamp := p.stamp, origin := p.origin, kept := p.kept,
                                     standing := if p.handset = b.handset then b.standing else .empty } ∧
        (∀ d, d ≠ p.car → t.bind.entries.get d =
          if p.handset.isSome = true ∧ (s.bind.entries.get d).handset = p.handset
          then { s.bind.entries.get d with handset := none, standing := .empty } else s.bind.entries.get d) ∧
        t = { heardOnly s f with
          handsets := handsetsRebound s p.car p.handset
          bind := { s.bind with entries := t.bind.entries, unsaved := true } })) ∧
  (∀ s : State, s.node.live = false ∨ (Lane.all.filter (fun l => (s.gates.get l).codedStall.isSome)).length ≠ 1 ∨
    (s.handsets.filter (fun e => decide (e.freshGesture ≠ .none))).length ≠ 1 → judgeLocal s = s) ∧
  ∀ (s : State) (l : Lane) (c : Car) (e : HandsetEntry), s.node.live = true →
    Lane.all.filter (fun l => (s.gates.get l).codedStall.isSome) = [l] → (s.gates.get l).codedStall = some c.code →
    s.handsets.filter (fun e => decide (e.freshGesture ≠ .none)) = [e] →
    let b := s.bind.entries.get c
    let wanted : Option (Option HandsetAddr × Bool) := match e.freshGesture with
      | .bind => if b.handset = some e.address ∧ b.kept = false then none else some (some e.address, false)
      | .bindKept => if b.handset = some e.address ∧ b.kept = true then none else some (some e.address, true)
      | .release => if b.handset = some e.address then some (none, false) else none
      | .none => none
    let stamp : BitVec 16 := if b.stamp.toNat < 65535 then b.stamp + 1 else b.stamp
    let newer : Prop := b.stamp.toNat < stamp.toNat ∨ (stamp = b.stamp ∧ s.working.address.toNat < b.origin.toNat)
    (wanted = none ∨ ¬newer → judgeLocal s = s) ∧
    ∀ h k, wanted = some (h, k) → newer →
      let t := judgeLocal s
      let g := s.gates.get l
      let n : Notice := { code := c.code, handset := h.getD 0 }
      t.bind.entries.get c = { handset := h, stamp := stamp, origin := s.working.address, kept := k,
                               standing := if h = b.handset then b.standing else .empty } ∧
      (∀ d, d ≠ c → t.bind.entries.get d =
        if h.isSome = true ∧ (s.bind.entries.get d).handset = h
        then { s.bind.entries.get d with handset := none, standing := .empty } else s.bind.entries.get d) ∧
      t.bind.unsaved = true ∧
      t.bind.runs = s.bind.runs.set l (some { car := c, count := 1, nextAt := Time.plus s.now 781 }) ∧
      t.gates = s.gates.set l (if g.sending.isSome then { g with waiting := some n }
        else { g with sending := some { notice := n, ends := Time.plus s.now n.ticks },
                      blanking := some (Time.plus (Time.plus s.now n.ticks) 4), decoder := .hunt }) ∧
      queuedIn
        { id := s.line.nextId, level := 1, originator := s.working.address,
          body := .bind { code := c.code, handset := h.getD 0, stamp := stamp, origin := s.working.address, kept := k },
          deadline := Time.plus s.now 7813, queued := s.now, owner := .bindingTable } s.line.queue t.line.queue ∧
      t.handsets = handsetsRebound s c h ∧
      t = { s with
        gates := t.gates
        handsets := t.handsets
        bind := { s.bind with entries := t.bind.entries, unsaved := t.bind.unsaved, runs := t.bind.runs }
        line := { s.line with queue := t.line.queue, nextId := t.line.nextId } }

/-- R52: outside LOAD and OFF a binding entry's stamp never decreases. The steps into LOAD, RESET_ASSERT and a CFGX, are
covered too: R52 and R68 give the stamp the saved value at the entry, and that it stands until the read of LOAD ends is the
model's reading (log 7, DEDUCED). -/
def Obligations.StampsNeverDecreaseOutsideLoad : Prop :=
  ∀ (c : Instr) (s t : State) (car : Car), exec c s = .next t → s.node ≠ .load → s.node ≠ .off → t.node ≠ .off →
    (s.bind.entries.get car).stamp.toNat ≤ (t.bind.entries.get car).stamp.toNat

/-- R39, R47, R64, R76, R91, R153, R158, R172: HEAT frees every unkept binding without raising its stamp, and removes every
order and every latched request, whether it is received, which does step 1 of R153 too (heardOnly), or pressed. The handset
entries are kept as they stand otherwise, but for one of a handset that this HEAT leaves bound to no car and that is stale,
which is removed at once (log 21, DEDUCED); a press in SYNC or RUN queues a HEAT frame too, a press elsewhere has no effect,
and only a reading of released re-arms the filter. -/
def Obligations.HeatFreesUnkeptBindings : Prop :=
  let heated (s t : State) : Prop :=
    (∀ c, t.bind.entries.get c = { s.bind.entries.get c with
      handset := if (s.bind.entries.get c).kept then (s.bind.entries.get c).handset else none, standing := .empty }) ∧
    (t.bind.unsaved = true ↔ s.bind.unsaved = true ∨
      ∃ c, (s.bind.entries.get c).handset.isSome = true ∧ (s.bind.entries.get c).kept = false) ∧
    (let freed (h : HandsetAddr) : Bool :=
       decide (∃ c, (s.bind.entries.get c).handset = some h) &&
       decide (∀ c, (s.bind.entries.get c).handset = some h → (s.bind.entries.get c).kept = false)
     let stale (h : HandsetAddr) : Bool := (handsetEntry s h).any (fun x => arrived s.now (Time.plus x.lastHeard 31250))
     t.handsets = (s.handsets.filter (fun e => !(freed e.address && stale e.address))).map
       (fun e => { e with request := none })) ∧
    t = { s with
      sup := t.sup
      handsets := t.handsets
      bind := { s.bind with entries := t.bind.entries, unsaved := t.bind.unsaved }
      occ := { s.occ with up := t.occ.up, down := t.occ.down }
      line := t.line }
  (∀ (bits : List Bool) (phase : BitVec 3) (s : State) (f : GoodFrame), delivered s bits .heat f → s.node.live = true →
    ∃ t, exec (.heatReceived bits phase) s = .next t ∧ heated s t ∧ t.sup = s.sup ∧
      t.occ = (heardOnly s f).occ ∧ t.line = (heardOnly s f).line) ∧
  (∀ (s : State) (r : Time), s.sup.heatReleased = some r → arrived s.now (Time.plus r 156) = true → s.node.live = true →
    ∃ t, exec .heatPress s = .next t ∧ heated s t ∧ t.sup = { s.sup with heatReleased := none } ∧ t.occ = s.occ ∧
      queuedIn { id := s.line.nextId, level := 1, originator := s.working.address, body := .heat,
                 deadline := Time.plus s.now 7813, queued := s.now, owner := .supervisor } s.line.queue t.line.queue ∧
      t.line = { s.line with queue := t.line.queue, nextId := s.line.nextId + 1 }) ∧
  (∀ (s : State) (r : Time), s.sup.heatReleased = some r → arrived s.now (Time.plus r 156) = true → s.node.live = false →
    s.node ≠ .off → exec .heatPress s = .next { s with sup := { s.sup with heatReleased := none } }) ∧
  (∀ s : State, s.sup.heatReleased = none → exec .heatPress s = .next s) ∧
  ∀ s : State, s.node ≠ .off → exec .heatInputReleased s = .next { s with sup := { s.sup with heatReleased := some s.now } }

/-- R62, R63, R91, R153: a JOIN of the downstream neighbour starts the replay at entry 1, and it feeds at once: the entries
with a stamp above 0 in order of code, each as a level-2 BIND, until the queue holds 4 frames or none is left; where the
cursor is then absent every such entry has its frame. Any other JOIN starts none, and step 1 of R153 comes before either
(heardOnly). A frame that leaves the queue, sent or at its deadline, lets a replay under way feed on from its place. -/
def Obligations.JoinStartsTheReplay : Prop :=
  (∀ (bits : List Bool) (phase : BitVec 3) (s : State) (f : GoodFrame), delivered s bits .join f → s.node.live = true →
    exec (.joinReceived bits phase) s = .next
      (if f.originator = s.working.downstream ∧ f.originator ≠ 0 then replayed (heardOnly s f) 0 else heardOnly s f)) ∧
  (∀ s : State, (replayed s 0).bind.cursor = none → ∀ c, (s.bind.entries.get c).stamp ≠ 0 →
    ∃ x ∈ (replayed s 0).line.queue, x.level = 2 ∧ x.originator = s.working.address ∧ x.deadline = Time.plus s.now 7813 ∧
      x.body = .bind { code := c.code, handset := (s.bind.entries.get c).handset.getD 0,
                       stamp := (s.bind.entries.get c).stamp, origin := (s.bind.entries.get c).origin,
                       kept := (s.bind.entries.get c).kept }) ∧
  (∀ (i : Nat) (s : State) (f : TxFrame) (c : Car), s.line.queue[i]? = some f → f.isTaken = false →
    arrived s.now f.deadline = true → s.bind.cursor = some c → s.node.live = true →
    exec (.frameDeadline i) s = .next (replayed { s with line := { s.line with
      queue := s.line.queue.filter (fun x => decide (x.id ≠ f.id)) } } c)) ∧
  ∀ (s : State) (a : Attempt) (c : Car), s.line.send = .sending a → a.bits ≠ [] → s.bind.cursor = some c →
    s.node.live = true → arrived s.now (Time.plus a.start ((a.phase.toNat + (a.bits.length - 1)) / 8)) = true →
    (∃ f ∈ s.line.queue, f.id = a.frame.id) → (∀ l, a.frame.owner ≠ .grantUnit l) →
    let r := replayed { s with line := { s.line with
      queue := s.line.queue.filter (fun f => decide (f.id ≠ a.frame.id)), state := .waitIdle 0, send := .idle } } c
    exec .attemptComplete s = .next { r with line := { r.line with beacon := some s.now } }

/-- R31, R58: at a run's next notice time a notice with the entry's present handset is handed to the gate, which sends it,
holds it, or out of STALL drops it; the run goes on 781 ticks later, and ends with its fortieth notice. R59: where that
notice begins and an edge of the same tick then completes the second frame of another car's code, the run ends and the
notice goes on; that the edge is read although blanking has begun is log 36's (DEDUCED). R33: any other sample pair of that
tick is not taken. -/
def Obligations.NoticeRunRepeats : Prop :=
  (∀ (l : Lane) (s : State) (r : NoticeRun), s.bind.runs.get l = some r → s.node.live = true → arrived s.now r.nextAt = true →
    let n : Notice := { code := r.car.code, handset := (s.bind.entries.get r.car).handset.getD 0 }
    let g := s.gates.get l
    exec (.noticeRunRepeat l) s = .next { s with
      gates :=
        if g.isStalled then
          s.gates.set l (if g.sending.isSome then { g with waiting := some n }
            else { g with sending := some { notice := n, ends := Time.plus s.now n.ticks },
                          blanking := some (Time.plus (Time.plus s.now n.ticks) 4), decoder := .hunt,
                          dropped := if g.blanking.isSome then g.dropped else some g.decoder })
        else s.gates
      bind := { s.bind with runs := s.bind.runs.set l (
        if r.count + 1 < 40 then some { r with count := r.count + 1, nextAt := Time.plus r.nextAt 781 } else none) } }) ∧
  (∀ (l : Lane) (x : Bool) (s : State) (r : NoticeRun) (p : Passage) (c : CarCode) (dec : Option CarCode),
    s.bind.runs.get l = some r → s.node.live = true → arrived s.now r.nextAt = true → gateWorks s l = true →
    (s.gates.get l).sending = none → (s.gates.get l).blanking = none → (s.gates.get l).level = some (!x) →
    (s.gates.get l).state = .stall p (some { code := c, frames := 1 }) dec → dec ≠ some c → c ≠ r.car.code →
    frameCode ((s.gates.get l).decoder.edge x (Time.diff p.last s.now)).2 = some c →
    (∀ e ∈ s.handsets, e.freshGesture = .none) →
    ∃ t u, exec (.noticeRunRepeat l) s = .next t ∧ exec (.irEdge l x x) t = .next u ∧
      (u.gates.get l).codedStall = some c ∧ u.bind.runs.get l = none ∧
      (u.gates.get l).sending = (t.gates.get l).sending ∧ (t.gates.get l).sending.isSome = true ∧
      (u.gates.get l).blanking = (t.gates.get l).blanking ∧ (u.gates.get l).level = some x ∧
      (u.gates.get l).decoder = .hunt) ∧
  ∀ (l : Lane) (x y : Bool) (s : State) (r : NoticeRun) (p : Passage) (sc : Option StallCode) (dec : Option CarCode),
    s.bind.runs.get l = some r → s.node.live = true → arrived s.now r.nextAt = true →
    (s.gates.get l).sending = none → (s.gates.get l).blanking = none → (s.gates.get l).state = .stall p sc dec →
    (∀ c, frameCode ((s.gates.get l).decoder.edge y (Time.diff p.last s.now)).2 = some c →
      x ≠ y ∨ (s.gates.get l).level ≠ some (!y) ∨ c = r.car.code ∨ dec = some c ∨ sc ≠ some { code := c, frames := 1 }) →
    ∃ t, exec (.noticeRunRepeat l) s = .next t ∧ (t.gates.get l).blanking.isSome = true ∧ exec (.irEdge l x y) t = .next t

/-- R66, R166, R177: a save ends with its fifteen records written, its mark VALID and the unsaved mark clear; a configuration
write ends with its block in the store and the image, and its mark CLEAR. -/
def Obligations.StoreWorkCompletes : Prop :=
  (∀ (s : State) (t : Time), s.sup.save = some t → arrived s.now (Time.plus t 375) = true →
    exec .saveComplete s = .next { s with
      nv := { s.nv with saveMark := 1, records := s.bind.entries.map saveRecord }
      sup := { s.sup with nvBusy := false, save := none }
      bind := { s.bind with unsaved := false } }) ∧
  ∀ (s : State) (w : ConfigWrite), s.sup.write = some w → arrived s.now (Time.plus w.since 313) = true →
    exec .configWriteComplete s = .next { s with
      nv := { s.nv with block := w.block, writeMark := 0 }
      sup := { s.sup with mirror := { s.sup.mirror with image := w.block }, nvBusy := false, write := none } }

/-- R66, R68, R177: a saved table is restored as it was, without its orders: decoding the records of every table that R49
admits gives the table back. -/
def Obligations.SavedTableIsRestored : Prop :=
  ∀ t : CodeTable Binding, boundOnce t →
    (∀ c, (t.get c).handset ≠ some 0 ∧ (t.get c).handset ≠ some 65535 ∧ (t.get c).origin ≠ 0) →
    restoreEntries (t.map saveRecord) = t.map (fun b => { b with standing := .empty })

/-! ## Occupancy block (06) -/

/-- R81, R90: an occupancy entry leaves the list when its window end arrives, and, as R90 says, "An approach record that no
arrival has matched leaves the list when its window end arrives."; nothing else changes, and an expiry that finds no entry
changes nothing. -/
def Obligations.WindowsExpireAtTheirEnds : Prop :=
  (∀ (i : Nat) (s : State) (e : OccupancyEntry) (t : Time), s.occ.list[i]? = some e → e.stop = .at t → arrived s.now t = true →
    exec (.occupancyExpiry i) s = .next { s with occ := { s.occ with list := s.occ.list.eraseIdx i } }) ∧
  (∀ (i : Nat) (s : State), s.occ.list[i]? = none → exec (.occupancyExpiry i) s = .next s) ∧
  (∀ (i : Nat) (s : State) (r : ApproachRecord), s.occ.approach[i]? = some r → arrived s.now r.window.stop = true →
    exec (.approachExpiry i) s = .next { s with occ := { s.occ with approach := s.occ.approach.eraseIdx i } }) ∧
  ∀ (i : Nat) (s : State), s.occ.approach[i]? = none → exec (.approachExpiry i) s = .next s

/-- R84, R92, R130: a claim leaves at its window end and a lane hold at its time; a neighbour's silence is read from its
last-heard time, and NEIGHBOUR_SILENCE changes no field (log 16, DEDUCED). That an expiry which is not due leaves the state
is the model's choice (log 1, DESIGN CHOICE). -/
def Obligations.ClaimsHoldsAndSilence : Prop :=
  (∀ (i : Nat) (s : State) (c : Claim), s.grants.claims[i]? = some c →
    exec (.claimExpiry i) s = .next
      (if arrived s.now c.window.stop then { s with grants := { s.grants with claims := s.grants.claims.eraseIdx i } } else s)) ∧
  (∀ (l : Lane) (s : State) (t : Time), s.occ.holds.get l = some t →
    exec (.laneHoldEnd l) s = .next
      (if arrived s.now t then { s with occ := { s.occ with holds := s.occ.holds.set l none } } else s)) ∧
  (∀ (side : Neighbour) (s : State), exec (.neighbourSilence side) s = .next s ∧
    (isBlind s = true ↔ s.working.gu ≠ 0 ∧ ∃ t, s.occ.up.lastHeard = some t ∧ arrived s.now (Time.plus t 15625) = true)) ∧
  (∀ (i : Nat) (s : State) (e : OccupancyEntry), s.occ.list[i]? = some e →
    (e.stop = .open ∨ ∃ t, e.stop = .at t ∧ arrived s.now t = false) → exec (.occupancyExpiry i) s = .next s) ∧
  (∀ (i : Nat) (s : State) (r : ApproachRecord), s.occ.approach[i]? = some r → arrived s.now r.window.stop = false →
    exec (.approachExpiry i) s = .next s) ∧
  ∀ (a : HandsetAddr) (s : State) (e : HandsetEntry) (r : Request), handsetEntry s a = some e → e.request = some r →
    arrived s.now (Time.plus r.latched (s.working.requestHold * 3906)) = false → exec (.requestExpiry a) s = .next s

/-- R83, R84, R87, R131: with room, an entry, a record or a claim enters and nothing goes. Entering one in a full occupancy
list, approach list or claim table evicts the one that ends first, of equals the earliest in order, and, when its end has
not arrived, leaves its lane held at least until then. What the newcomer replaces, of its own identified car, frees its
place first (R86, R129). A record stands just before the first one of a later predicted arrival (R85), and a claim just before
the first one of a later window start (R128). R156: a frame handed in to a full transmit queue takes the room of one that is
dropped (queuedIn); in every state of the invariants there is one, it is no TAKEN frame, and of the frames of its level that are
no TAKEN none was queued earlier. -/
def Obligations.EvictionHoldsTheLane : Prop :=
  let near (now t : Time) : Prop := -1073741824 < Time.diff now t ∧ Time.diff now t < 1073741824
  let held (s t : State) (l : Lane) (e : Time) : Prop := Time.before s.now e = true → l.num ≤ s.working.lanes →
    ∃ u, t.occ.holds.get l = some u ∧ (u = e ∨ (s.occ.holds.get l = some u ∧ Time.before u e = false))
  (∀ (s : State) (e : OccupancyEntry), s.occ.list.length < 24 → enterOccupancy s e = { s with occ := { s.occ with
    list := s.occ.list ++ [e] } }) ∧
  (∀ (s : State) (e : OccupancyEntry), s.occ.list.length = 24 → (∀ x ∈ s.occ.list, ∀ t, x.stop = .at t → near s.now t) →
    ∃ (i : Nat) (v : OccupancyEntry), s.occ.list[i]? = some v ∧
      (enterOccupancy s e).occ.list = s.occ.list.eraseIdx i ++ [e] ∧
      (∀ x ∈ s.occ.list, WindowEnd.before x.stop v.stop = false) ∧
      (∀ x ∈ s.occ.list.take i, WindowEnd.before v.stop x.stop = true) ∧
      ∀ t, v.stop = .at t → held s (enterOccupancy s e) v.lane t) ∧
  (∀ (s : State) (r : ApproachRecord),
    let kept := s.occ.approach.filter (fun x => decide (r.code = 0 ∨ x.code ≠ r.code))
    let later (y : ApproachRecord) : Prop := Time.before r.arrival y.arrival = true
    (kept.length < 16 → enteredBefore later r kept (enterApproach s r).occ.approach ∧
      enterApproach s r = { s with occ := { s.occ with approach := (enterApproach s r).occ.approach } }) ∧
    (kept.length = 16 → (∀ x ∈ kept, near s.now x.window.stop) →
      ∃ (i : Nat) (v : ApproachRecord), kept[i]? = some v ∧
        enteredBefore later r (kept.eraseIdx i) (enterApproach s r).occ.approach ∧
        (∀ x ∈ kept, Time.before x.window.stop v.window.stop = false) ∧
        (∀ x ∈ kept.take i, Time.before v.window.stop x.window.stop = true) ∧
        held s (enterApproach s r) v.lane v.window.stop)) ∧
  (∀ (s : State) (c : Claim),
    let kept := s.grants.claims.filter (fun x => decide (c.code = 0 ∨ x.code ≠ c.code))
    let later (y : Claim) : Prop := Time.before c.window.start y.window.start = true
    (kept.length < 8 → enteredBefore later c kept (enterClaim s c).grants.claims ∧
      enterClaim s c = { s with grants := { s.grants with claims := (enterClaim s c).grants.claims } }) ∧
    (kept.length = 8 → (∀ x ∈ kept, near s.now x.window.stop) →
      ∃ (i : Nat) (v : Claim), kept[i]? = some v ∧
        enteredBefore later c (kept.eraseIdx i) (enterClaim s c).grants.claims ∧
        (∀ x ∈ kept, Time.before x.window.stop v.window.stop = false) ∧
        (∀ x ∈ kept.take i, Time.before v.window.stop x.window.stop = true) ∧
        held s (enterClaim s c) v.lane v.window.stop)) ∧
  (∀ (s : State) (level : BitVec 2) (body : FrameBody) (deadline : Time) (owner : Owner),
    s.node = .sync ∨ s.node = .run ∨ (s.node = .setup ∧ body.kind = .cfgd) → arrived s.now deadline = false →
    let t := handIn s level body deadline owner
    queuedIn { id := s.line.nextId, level := level,
               originator := if s.node = .setup then s.sup.setupAddress else s.working.address, body := body,
               deadline := deadline, queued := s.now, owner := owner } s.line.queue t.line.queue ∧
    t = { s with line := { s.line with queue := t.line.queue, nextId := s.line.nextId + 1 } }) ∧
  ∀ s : State, lineKept s → bladesKept s → s.line.queue.length = 8 →
    ∃ (i : Nat) (v : TxFrame), dropped s.line.queue i v ∧ v.isTaken = false ∧
      ∀ x ∈ s.line.queue, x.level = v.level → x.isTaken = false → Time.diff x.queued s.now ≤ Time.diff v.queued s.now

/-! ## Grants (07, 08) -/

/-- R74, R124, R125, R127, R155: when the throw time of a PROVISIONAL slot arrives the grant ends as LATE: its TAKEN frame and its
TARGET entry are gone, the slot is free, an order it used is given back by the table of R74 (givenBack), and a LATE notice with
the fields of R127 (endsWith) is queued while its deadline lies ahead; the frame's own deadline, taken first, does the same.
A replay under way feeds on in this event (R63); that it does so as the frame leaves (withoutFrame), before the LATE notice is
handed in, is the model's reading: R63 gives no place in the event (log 17, DEDUCED). -/
def Obligations.GrantEndsLate : Prop :=
  (∀ (l : Lane) (s : State) (g : Grant) (id : Nat), s.grants.slots.get l = some g → g.state = .provisional →
    arrived s.now g.throwAt = true → g.frame = some id → s.node = .run →
    let r := withoutFrame s id
    ∃ (t : State) (n : PassBody), exec (.grantLate l) s = .next t ∧ t.grants.slots = s.grants.slots.set l none ∧
      t.grants.claims = s.grants.claims ∧
      t.occ = { s.occ with list := s.occ.list.filter (fun e => !decide (e.link = some l)) } ∧
      (id < s.line.nextId → ∀ f ∈ t.line.queue, f.id ≠ id) ∧ endsWith s t l g .late n ∧
      (arrived s.now (Time.plus g.tRef 3125) = false →
        queuedIn { id := r.line.nextId, level := 0, originator := s.working.address, body := .pass n,
                   deadline := Time.plus g.tRef 3125, queued := s.now, owner := .grantUnit l } r.line.queue t.line.queue) ∧
      (arrived s.now (Time.plus g.tRef 3125) = true → t.line.queue = r.line.queue) ∧
      (∀ c, t.bind.entries.get c = { s.bind.entries.get c with standing := givenBack g c (s.bind.entries.get c).standing }) ∧
      t = { s with
        bind := { s.bind with entries := t.bind.entries, cursor := r.bind.cursor }
        occ := t.occ
        grants := t.grants
        line := { s.line with queue := t.line.queue, nextId := r.line.nextId + 1 } }) ∧
  ∀ (i : Nat) (l : Lane) (s : State) (f : TxFrame) (g : Grant), s.line.queue[i]? = some f → f.owner = .grantUnit l →
    f.isTaken = true → s.grants.slots.get l = some g → g.state = .provisional → g.frame = some f.id →
    f.deadline = g.throwAt → arrived s.now g.throwAt = true →
    exec (.frameDeadline i) s = exec (.grantLate l) s

/-- R74, R110 to R113, R121, R122, R124, R127: after a recheck, which a PASS takes as NeighbourNoticesAreKept says, no
PROVISIONAL grant of lanes 1 to N fails check 12, 13, 14 or 15, taken with the slot's values. A grant that fails none stands,
with its frame and its TARGET entry: where no other slot is filled, nothing changes at all. One that fails, no other slot
being filled, ends as YIELDED: its slot is free, its TAKEN frame and its TARGET entry are gone, an order it used is given back
by the table of R74 (givenBack), and a YIELDED notice with the fields of R127 (endsWith) is queued while its deadline lies
ahead. A replay under way feeds on in this event (R63); that it does so as the frame leaves (withoutFrame), before the YIELDED
notice is handed in, is the model's reading: R63 gives no place in the event (log 17, DEDUCED). -/
def Obligations.RecheckLeavesNoConflict : Prop :=
  (∀ (s : State) (r : Option ApproachRecord) (l : Lane) (g : Grant), l.num ≤ s.working.lanes →
    (recheck s r).grants.slots.get l = some g → g.state = .provisional → ¬recheckMet (recheck s r) l g) ∧
  (∀ (s : State) (r : Option ApproachRecord) (l : Lane) (g : Grant), s.grants.slots.get l = some g →
    g.state = .provisional → ¬recheckMet s l g →
    (recheck s r).grants.slots.get l = some g ∧
    ((∀ m, m ≠ l → s.grants.slots.get m = none) → recheck s r = s)) ∧
  ∀ (s : State) (r : Option ApproachRecord) (l : Lane) (g : Grant), s.grants.slots.get l = some g →
    g.state = .provisional → recheckMet s l g → l.num ≤ s.working.lanes → (∀ m, m ≠ l → s.grants.slots.get m = none) →
    (recheck s r).grants.slots.get l = none ∧
    ∀ id, g.frame = some id → s.node = .run →
      let t := recheck s r
      let u := withoutFrame s id
      t.grants = { s.grants with slots := s.grants.slots.set l none } ∧
      t.occ = { s.occ with list := s.occ.list.filter (fun e => !decide (e.link = some l)) } ∧
      (id < s.line.nextId → ∀ f ∈ t.line.queue, f.id ≠ id) ∧
      (∃ n, endsWith s t l g .yielded n ∧
        (arrived s.now (Time.plus g.tRef 3125) = false →
          queuedIn { id := u.line.nextId, level := 0, originator := s.working.address, body := .pass n,
                     deadline := Time.plus g.tRef 3125, queued := s.now, owner := .grantUnit l } u.line.queue t.line.queue) ∧
        (arrived s.now (Time.plus g.tRef 3125) = true → t.line.queue = u.line.queue)) ∧
      (∀ c, t.bind.entries.get c = { s.bind.entries.get c with standing := givenBack g c (s.bind.entries.get c).standing }) ∧
      t = { s with
        bind := { s.bind with entries := t.bind.entries, cursor := u.bind.cursor }
        occ := t.occ
        grants := t.grants
        line := { s.line with queue := t.line.queue, nextId := u.line.nextId + 1 } }

/-- R74, R121, R123, R126, R127, R139: a record just entered, whose recheck a PASS takes as NeighbourNoticesAreKept says, ends
a COMMITTED grant whose blade is ARMED exactly when it is of another car that cannot yield and it conflicts in lane in or in
the target lane: the blade stands down to COOLING, the slot is free, the TARGET entry is gone, an order it used is given back
by the table of R74 (givenBack), and an ABORTED notice with all the fields of R127 (endsWith) is queued while its deadline
lies ahead, a full queue making room by R156 (queuedIn). Otherwise slot and blade stand. The slots are rechecked in order of
lane (R121): this one in the state that the lower lanes leave, `u`, the higher lanes after it; where no other slot is filled
they change nothing. -/
def Obligations.CannotYieldRecordAbortsTheArmedGrant : Prop :=
  ∀ (s : State) (r : ApproachRecord) (l : Lane) (g : Grant), l.num ≤ s.working.lanes →
    s.grants.slots.get l = some g → g.state = .committed → (s.blades.get l).state = .armed →
    let conflict : Prop :=
      (r.code = 0 ∨ r.outcome = .straight ∨ r.outcome = .swept ∨ r.outcome = .notReady) ∧ r.code ≠ g.code ∧
      ((r.lane = l ∧ Time.atOrBefore g.throwAt r.bladeTime = true ∧ Time.atOrBefore r.bladeTime g.releaseAt = true) ∨
        (r.lane = g.target ∧ r.window.conflicts g.window = true))
    let t := recheck s (some r)
    let u := (Lane.all.filter (fun m => decide (m.num < l.num))).foldl (recheckSlot (some r)) s
    let v := recheckSlot (some r) u l
    t = (Lane.all.filter (fun m => decide (l.num < m.num ∧ m.num ≤ s.working.lanes))).foldl (recheckSlot (some r)) v ∧
    ((∀ m, m ≠ l → s.grants.slots.get m = none) → u = s ∧ t = v) ∧
    (¬conflict → v = u ∧ t.grants.slots.get l = some g ∧ t.blades.get l = s.blades.get l) ∧
    (conflict →
      t.grants.slots.get l = none ∧
      t.blades.get l = { state := .cooling, throwAt := none, releaseAt := none, coolingEnd := some (Time.plus s.now 625),
                         coil := false, drivenSince := none } ∧
      (∀ e ∈ t.occ.list, e.link ≠ some l) ∧
      (∀ c, v.bind.entries.get c = { u.bind.entries.get c with standing := givenBack g c (u.bind.entries.get c).standing }) ∧
      (∃ n, endsWith u v l g .aborted n ∧
        (s.node = .run → arrived s.now (Time.plus g.tRef 3125) = false →
          queuedIn { id := u.line.nextId, level := 0, originator := s.working.address, body := .pass n,
                     deadline := Time.plus g.tRef 3125, queued := s.now, owner := .grantUnit l } u.line.queue v.line.queue) ∧
        (arrived s.now (Time.plus g.tRef 3125) = true → v.line.queue = u.line.queue)) ∧
      v = { u with
        bind := { u.bind with entries := v.bind.entries }
        occ := { u.occ with list := u.occ.list.filter (fun e => !decide (e.link = some l)) }
        grants := { u.grants with slots := u.grants.slots.set l none }
        blades := u.blades.set l { state := .cooling, throwAt := none, releaseAt := none,
                                   coolingEnd := some (Time.plus s.now 625), coil := false, drivenSince := none }
        line := { u.line with queue := v.line.queue, nextId := u.line.nextId + 1 } })

/-- R94 to R118: a decision that ends in TAKEN is of a NORMAL record of a bound car with a request, has passed every check
with no pending grant ended, and fills the free slot as PROVISIONAL with the throw and release of R10, the blade staying
REST. The ladder gives every record its outcome: NOT_READY in SYNC, STALLED, what a blade met gives, STRAIGHT without a
request, NO_LANE, and else the first of KEPT and the refusals that answers. A decision consumes the press (R115, R43),
counts the order down (R73), enters the TARGET entry (R80) and queues its notice (R116, R118); and a passage that closes in
SYNC or RUN is decided so. -/
def Obligations.TakenGrantIsSound : Prop :=
  (∀ (s : State) (r : PassageRecord), s.node.live = true → (ladder s (candidate s r)).2.outcome = .taken →
    ∃ (h : HandsetAddr) (q : CarRequest) (target : Lane),
      boundHandset s r.code = some h ∧ requestOf s r.code = some q ∧ asks s r.code h q ∧ s.node = .run ∧ r.kind = .normal ∧
      Lane.besideWithin s.working.lanes r.lane q.dir = some target ∧ s.working.sides.get r.lane = some q.dir ∧
      isHeld s r.lane = false ∧ isHeld s target = false ∧ (s.gates.get target).state = .idle ∧
      (s.blades.get r.lane).state = .rest ∧ s.grants.slots.get r.lane = none ∧
      (∀ t, (s.blades.get r.lane).coolingEnd = some t →
        Time.before (holdWindow s.working r.tRef r.pace.ticks).start t = false) ∧
      Time.before (holdWindow s.working r.tRef r.pace.ticks).start (Time.plus r.handover 16) = false ∧
      ¬followingMet s r.lane [r.code] (holdWindow s.working r.tRef r.pace.ticks) ∧
      ¬targetMet s target (zoneWindow s.working r.tRef r.pace.ticks) none ∧
      ¬blindMet s target r.handover ∧ ¬downstreamMet s target r.tRef r.pace.ticks ∧
      (ladder s (candidate s r)).1 = s ∧
      (decideRecord s r).blades = s.blades ∧
      (decideRecord s r).grants = { s.grants with slots := s.grants.slots.set r.lane (some
        { state := .provisional, code := r.code, handset := h, used := q.used, target := target, tRef := r.tRef,
          pace := r.pace, throwAt := (holdWindow s.working r.tRef r.pace.ticks).start,
          releaseAt := (holdWindow s.working r.tRef r.pace.ticks).stop,
          window := zoneWindow s.working r.tRef r.pace.ticks, frame := some s.line.nextId }) }) ∧
  (∀ (s : State) (r : PassageRecord), s.node.live = true →
    let u := (ladder s (candidate s r)).1
    let d := (ladder s (candidate s r)).2
    (s.node = .sync → u = s ∧ d = { outcome := .notReady, laneOut := r.lane }) ∧
    (s.node = .run → r.kind = .stalled → u = s ∧ d = { outcome := .stalled, laneOut := r.lane }) ∧
    (s.node = .run → r.kind = .normal →
      ((∀ x side target hold, ¬bladeMeets s r x side target hold) → u = s ∧ laterOutcome s u r False d) ∧
      ∀ side target hold,
        (bladeMeets s r .thrown side target hold → u = s ∧ d.laneOut = target ∧
          ((∃ h q, asks s r.code h q ∧ q.dir = side) → d.outcome = .shared) ∧
          ((∀ h q, asks s r.code h q → q.dir ≠ side) → d.outcome = .swept)) ∧
        (bladeMeets s r .armed side target hold →
          (sharing s r side target hold → u = s ∧ d = { outcome := .shared, laneOut := target }) ∧
          (¬sharing s r side target hold → u = abort s r.lane ∧ laterOutcome s u r False d)) ∧
        (bladeMeets s r .rest side target hold →
          (sharing s r side target hold → u = s ∧ d = { outcome := .shared, laneOut := target }) ∧
          (¬sharing s r side target hold → u = withdraw s r.lane .yielded ∧ laterOutcome s u r True d)))) ∧
  (∀ (s : State) (r : PassageRecord), s.node.live = true →
    let u := (ladder s (candidate s r)).1
    let d := (ladder s (candidate s r)).2
    let t := decideRecord s r
    let consumes : Prop := d.outcome ∈ ([.noLane, .laneHeld, .blockedTarget, .bladeBusy, .tooClose, .following, .blind,
      .blockedDownstream, .taken, .shared, .swept] : List Outcome)
    let counts : Prop := (d.outcome = .taken ∨ d.outcome = .shared) ∧ ∃ h side, asks s r.code h ⟨side, .order side⟩
    let zone := zoneWindow s.working r.tRef r.pace.ticks
    let target (link : Option Lane) : OccupancyEntry :=
      { code := r.code, lane := d.laneOut, kind := .target, tRef := r.tRef, pace := r.pace, start := zone.start,
        stop := .at zone.stop, link := link }
    (∀ h side n, asks s r.code h ⟨side, .press n⟩ → consumes →
      t.handsets = u.handsets.map (fun e =>
        if e.address = h ∧ e.request.map (·.count) = some n then { e with request := none } else e)) ∧
    ((∀ h side n, ¬asks s r.code h ⟨side, .press n⟩) ∨ ¬consumes → t.handsets = u.handsets) ∧
    (∀ car, Car.ofCode r.code = some car → counts →
      t.bind.entries = u.bind.entries.set car { u.bind.entries.get car with standing :=
        match (u.bind.entries.get car).standing with
        | .order e m => if m ≤ 1 then .runOut e else .order e (m - 1)
        | x => x }) ∧
    (¬counts → t.bind.entries = u.bind.entries) ∧
    (d.outcome = .shared ∨ d.outcome = .swept → t.occ = (enterOccupancy u (target none)).occ) ∧
    (d.outcome = .taken → t.occ = (enterOccupancy u (target (some r.lane))).occ) ∧
    (d.outcome ≠ .shared → d.outcome ≠ .swept → d.outcome ≠ .taken → t.occ = u.occ) ∧
    (d.outcome ≠ .taken → t.grants = u.grants) ∧
    (let deadline := if d.outcome = .taken then (holdWindow s.working r.tRef r.pace.ticks).start else Time.plus r.tRef 3125
     arrived s.now deadline = false →
      ∃ (pressed : Option (BitVec 4)) (order : Option OrderField),
        (∀ n, pressed = some n ↔ consumes ∧ ∃ h side, asks s r.code h ⟨side, .press n⟩) ∧
        (∀ o, order = some o ↔ ∃ car, Car.ofCode r.code = some car ∧
          ((t.bind.entries.get car).standing = .order o.dir o.remaining ∨
            ((t.bind.entries.get car).standing = .runOut o.dir ∧ o.remaining = 0 ∧ counts))) ∧
        t.line = { u.line with nextId := u.line.nextId + 1, queue := t.line.queue } ∧
        queuedIn
            { id := u.line.nextId, level := 0, originator := s.working.address, deadline := deadline, queued := s.now,
              owner := if d.outcome = .taken then .grantUnit r.lane else .planner,
              body := .pass { code := r.code, laneIn := r.lane, laneOut := d.laneOut, outcome := d.outcome,
                              pressed := pressed, order := order, pace := r.pace, tRef := r.tRef,
                              startOffset := startOffset s.working r.pace.ticks,
                              endOffset := endOffset s.working r.pace.ticks } } u.line.queue t.line.queue) ∧
    t = { u with
      handsets := t.handsets
      bind := { u.bind with entries := t.bind.entries }
      occ := t.occ
      grants := t.grants
      line := { u.line with queue := t.line.queue, nextId := t.line.nextId } }) ∧
  ∀ (l : Lane) (s : State) (p : Passage), (s.gates.get l).state = .open p → 24 ≤ (s.gates.get l).gap →
    8 ≤ Time.diff p.first p.last → s.node.live = true →
    let r : PassageRecord :=
      { lane := l, code := p.code.reported, tFirst := p.first, tRef := p.last, dwell := (Time.diff p.first p.last).toNat,
        pace := Pace.ofDwell s.working.w (Time.diff p.first p.last).toNat, kind := .normal, handover := s.now }
    exec (.passageClose l) s = .next (decideRecord (takeRecord
      (s.setGate l { s.gates.get l with state := .idle, decoder := .hunt }) r) r)

/-! ## Blades (09) -/

/-- R120, R136, R137, R138, R140: the throw, the release and the end of cooling of a blade, and the open coil: two absent
readings, the second 5 ticks after the throw or later, turn the coil off, leave the blade FAILED and free its slot. That the
readings are counted from the tick in which the coil went on, for a late throw too, is the model's choice (log 24, DESIGN
CHOICE). -/
def Obligations.BladeThrowsReleasesAndCools : Prop :=
  let freed (s : State) (l : Lane) (b : Blade) : State :=
    { s with
      blades := s.blades.set l b
      occ := { s.occ with list := s.occ.list.map (fun e => if e.link = some l then { e with link := none } else e) }
      grants := { s.grants with slots := s.grants.slots.set l none } }
  (∀ (l : Lane) (s : State) (t : Time), (s.blades.get l).state = .armed → (s.blades.get l).throwAt = some t →
    arrived s.now t = true → s.node = .run →
    exec (.bladeThrow l) s = .next { s with blades := s.blades.set l {
      s.blades.get l with state := .thrown, coil := true, drivenSince := some s.now } }) ∧
  (∀ (l : Lane) (s : State) (t : Time), (s.blades.get l).state = .thrown → (s.blades.get l).releaseAt = some t →
    arrived s.now t = true →
    exec (.bladeRelease l) s = .next (freed s l {
      state := .cooling, throwAt := none, releaseAt := none, coolingEnd := some (Time.plus t 625), coil := false,
      drivenSince := none })) ∧
  (∀ (l : Lane) (s : State) (t : Time), (s.blades.get l).state = .cooling → (s.blades.get l).coolingEnd = some t →
    arrived s.now t = true →
    exec (.coolingEnd l) s = .next { s with blades := s.blades.set l { s.blades.get l with state := .rest } }) ∧
  (∀ (l : Lane) (s : State) (t : Time), (s.blades.get l).state = .thrown → (s.blades.get l).drivenSince = some t →
    arrived s.now (Time.plus t 5) = true →
    exec (.openCoil l false false) s = .next (freed
      { s with pins := { s.pins with coilCurrent := s.pins.coilCurrent.set l false } } l
      { state := .failed, throwAt := none, releaseAt := none, coolingEnd := none, coil := false, drivenSince := none })) ∧
  ∀ (l : Lane) (s : State) (t : Time) (a b : Bool), (s.blades.get l).state = .thrown → (s.blades.get l).drivenSince = some t →
    arrived s.now (Time.plus t 5) = false ∨ a = true ∨ b = true →
    exec (.openCoil l a b) s = .next { s with pins := { s.pins with coilCurrent := s.pins.coilCurrent.set l b } }

/-- R134, R158, R161: a presence pulse turns one coil on for 8 ticks; its end leaves the blade REST or ABSENT by the current, and
either the next tested lane's pulse follows 8 ticks later or LOAD is left by the strap. That a blade under its pulse stands
ABSENT with its coil driven is log 6's (DESIGN CHOICE), and that the strap comes with the command log 35's (DESIGN CHOICE). -/
def Obligations.CoilPulsesSetTheBlades : Prop :=
  (∀ (l : Lane) (s : State) (t : Time), s.sup.load = .rest l t → s.node = .load → arrived s.now (Time.plus t 8) = true →
    exec .coilPulseStart s = .next { s with
      blades := s.blades.set l { state := .absent, throwAt := none, releaseAt := none, coolingEnd := none, coil := true,
                                 drivenSince := none }
      sup := { s.sup with load := .pulse l s.now } }) ∧
  (∀ (l m : Lane) (s : State) (t : Time) (present strap : Bool), s.sup.load = .pulse l t → s.node = .load →
    arrived s.now (Time.plus t 8) = true → nextTested s.working l.num = some m →
    exec (.coilPulseEnd present strap) s = .next { s with
      blades := s.blades.set l { state := if present then .rest else .absent, throwAt := none, releaseAt := none,
                                 coolingEnd := none, coil := false, drivenSince := none }
      pins := { s.pins with coilCurrent := s.pins.coilCurrent.set l present }
      sup := { s.sup with load := .rest m s.now } }) ∧
  ∀ (l : Lane) (s : State) (t : Time) (present strap : Bool), s.sup.load = .pulse l t → s.node = .load →
    arrived s.now (Time.plus t 8) = true → nextTested s.working l.num = none →
    ∃ u, exec (.coilPulseEnd present strap) s = .next u ∧ u.node = (if strap then .setup else .sync) ∧
      u.sup.load = .idle ∧ u.pins.strapHeld = strap ∧
      u.blades = s.blades.set l { state := if present then .rest else .absent, throwAt := none, releaseAt := none,
                                  coolingEnd := none, coil := false, drivenSince := none } ∧
      u.occ.up.address = s.working.upstream ∧ u.occ.down.address = s.working.downstream ∧ u.nv = s.nv ∧ u.now = s.now ∧
      u.bind = s.bind ∧ (strap = true → u.line.queue = []) ∧
      (strap = false → u.sup.cameOn = some s.now ∧ ∃ f, u.line.queue = [f] ∧ f.body = .join ∧ f.level = 2 ∧
        f.deadline = Time.plus s.now 7813 ∧ f.originator = s.working.address)

/-! ## Section line (10, 12) -/

/-- R144, R145, R146, R151, R173: the wire bits of every frame whose payload has its kind's length and whose level is allowed
are read back as that frame. -/
def Obligations.FrameOnTheWireIsReadBack : Prop :=
  ∀ (level : BitVec 2) (kind : FrameKind) (originator : NodeAddr) (payload : List Bool), payload.length = 8 * kind.length →
    kind.allows level.toNat = true →
    goodFrame (frameWire level kind originator payload) =
      some { level := level.toNat, kind := kind, originator := originator, payload := payload }

/-- R174, R175, R177: every PASS, BIND and BEACON payload and every block image is read back field for field, with values at
every place of their ranges. -/
def Obligations.PayloadsAreReadBack : Prop :=
  (∀ (p : PassBody) (age : Nat), age < 65536 → p.pace.ticks < 4096 → p.startOffset < 32768 → p.endOffset < 32768 →
    (∀ o, p.order = some o → o.remaining < 8) →
    decodePass (payloadWord 88 (bitsOf (encodePass p age))) =
      { code := p.code, laneIn := p.laneIn, laneOut := p.laneOut, outcome := some p.outcome, pressed := p.pressed,
        order := p.order, pace := p.pace, age := age, startOffset := p.startOffset, endOffset := p.endOffset }) ∧
  (∀ b : BindBody, decodeBind (payloadWord 48 (bitsOf (encodeBind b))) = b) ∧
  (∀ ds dm lanes : Nat, ds < 1024 → dm < 1024 → lanes < 8 →
    decodeBeacon (payloadWord 24 (bitsOf (encodeBeacon ds dm lanes))) = { ds := ds, dm := dm, lanes := lanes }) ∧
  ∀ b : Block, decodeBlock (payloadWord 128 (bitsOf (encodeBlock b))) = b

/-- R4, R11, R147, R148, R149: in READY the head of the queue starts, with its payload-start time 20 bits on and its age
formed from it; a header bit driven recessive and read dominant loses, any other mismatch is a bit fault, and either way
the node reads on what the wire carried. -/
def Obligations.AttemptStartsLosesAndFaults : Prop :=
  (∀ (phase : BitVec 3) (s : State) (f : TxFrame) (q : List TxFrame), s.line.queue = f :: q → s.line.send = .idle →
    s.line.state = .ready → s.node = .setup ∨ s.node = .sync ∨ s.node = .run →
    let p := Time.plus s.now ((phase.toNat + 20) / 8)
    exec (.attemptStart phase) s = .next { s with line := { s.line with state := .frame, send := .sending {
        frame := f, bits := frameWire f.level f.body.kind f.originator (f.body.payload p), start := s.now,
        phase := phase, payloadStart := p } } }) ∧
  (∀ (i : Nat) (s : State) (a : Attempt), s.line.send = .sending a → a.bits[i]? = some true → 1 ≤ i → i ≤ 13 → i ≠ 9 →
    arrived s.now (Time.plus a.start ((a.phase.toNat + i) / 8)) = true →
    exec (.arbitrationLoss i) s = .next { s with line := { s.line with send := .lost {
        read := a.bits.take i ++ [false], payloadStart := a.payloadStart } } }) ∧
  ∀ (i : Nat) (s : State) (a : Attempt) (b : Bool), s.line.send = .sending a → a.bits[i]? = some b →
    b = false ∨ i = 0 ∨ i = 9 ∨ 13 < i → arrived s.now (Time.plus a.start ((a.phase.toNat + i) / 8)) = true →
    exec (.bitFault i) s = .next { s with line := { s.line with send := .faulted {
        read := a.bits.take i ++ [!b], payloadStart := a.payloadStart } } }

/-- R148: of two frames that start together the one with the lower level, kind and originator, compared in that order, drives
dominant where the other drives recessive, at a header position, and the two agree before it. -/
def Obligations.LowerHeaderWins : Prop :=
  ∀ (la lb : BitVec 2) (ka kb : FrameKind) (oa ob : NodeAddr) (pa pb : List Bool),
    la.toNat * 1024 + ka.number.toNat * 64 + oa.toNat < lb.toNat * 1024 + kb.number.toNat * 64 + ob.toNat →
    ∃ i, isHeaderPosition i = true ∧ (frameWire la ka oa pa)[i]? = some false ∧ (frameWire lb kb ob pb)[i]? = some true ∧
      ∀ j, j < i → (frameWire la ka oa pa)[j]? = (frameWire lb kb ob pb)[j]?

/-- R63, R119, R135, R150, R157: a complete send takes the frame out of the queue, where it still is, lets a replay under way
feed on (withoutFrame), restarts the BEACON timer and returns the line
to WAIT_IDLE; the send of a PROVISIONAL slot's TAKEN frame commits the grant and arms its blade, and any other send, a
withdrawn grant's included, changes nothing else. -/
def Obligations.CompleteSendReportsToTheOwner : Prop :=
  ∀ (s : State) (a : Attempt), s.line.send = .sending a → a.bits ≠ [] → s.bind.cursor = none ∨ s.node.live = true →
    arrived s.now (Time.plus a.start ((a.phase.toNat + (a.bits.length - 1)) / 8)) = true →
    let left := withoutFrame s a.frame.id
    let sent : State := { left with line := { left.line with
      state := .waitIdle 0, send := .idle,
      beacon := if s.node = .sync ∨ s.node = .run then some s.now else s.line.beacon } }
    ((∀ l g, a.frame.owner = .grantUnit l → s.grants.slots.get l = some g →
        ¬(g.state = .provisional ∧ g.frame = some a.frame.id)) →
      exec .attemptComplete s = .next sent) ∧
    ∀ l g, a.frame.owner = .grantUnit l → s.grants.slots.get l = some g → g.state = .provisional →
      g.frame = some a.frame.id → (s.blades.get l).state = .rest → s.node = .run →
      exec .attemptComplete s = .next { sent with
        grants := { s.grants with slots := s.grants.slots.set l (some { g with state := .committed, frame := none }) }
        blades := s.blades.set l (if arrived s.now g.throwAt
          then { s.blades.get l with state := .thrown, throwAt := some g.throwAt, releaseAt := some g.releaseAt, coil := true,
                                     drivenSince := some s.now }
          else { s.blades.get l with state := .armed, throwAt := some g.throwAt, releaseAt := some g.releaseAt }) }

/-- R154, R155, R157: a held frame that is no TAKEN leaves the queue at its deadline and nothing else changes; 3906 ticks
after the last own transmission one BEACON with the piece's shape stands in the queue, and the timer is set to that
moment; the other frames stay in their order, the BEACON after them all, where no two frames bear one number (the model's
own, log 22, DESIGN CHOICE; LineInvariantKept). An older BEACON is removed first and makes the
room; where 8 other frames are held, R156 makes it (queuedIn). A replay under way feeds on in this event (R63); that it does so
as the older BEACON leaves (withoutFrame), before the new one is handed in, is the model's reading: R63 gives no place in the
event (log 17, DEDUCED). That a deadline which is not due leaves the state is the model's choice (log 1, DESIGN CHOICE). -/
def Obligations.DeadlineAndBeaconTimer : Prop :=
  (∀ (i : Nat) (s : State) (f : TxFrame), s.line.queue[i]? = some f → f.isTaken = false → arrived s.now f.deadline = true →
    s.bind.cursor = none →
    exec (.frameDeadline i) s = .next { s with line := { s.line with
      queue := s.line.queue.filter (fun x => decide (x.id ≠ f.id)) } }) ∧
  (∀ (i : Nat) (s : State) (f : TxFrame), s.line.queue[i]? = some f → arrived s.now f.deadline = false →
    exec (.frameDeadline i) s = .next s) ∧
  ∀ (s : State) (b : Time), s.line.beacon = some b → s.node.live = true → arrived s.now (Time.plus b 3906) = true →
    (s.line.queue.filter TxFrame.isBeacon).length ≤ 1 →
    let left := match s.line.queue.find? TxFrame.isBeacon with
      | some b => withoutFrame s b.id
      | none => s
    let f : TxFrame :=
      { id := left.line.nextId, level := 3, originator := s.working.address,
        body := .beacon s.working.ds s.working.dm s.working.lanes, deadline := Time.plus s.now 3906, queued := s.now,
        owner := .controller }
    ∃ t, exec .beaconTimer s = .next t ∧
      queuedIn f left.line.queue t.line.queue ∧
      (left.line.queue.length < 8 → t.line.queue.filter TxFrame.isBeacon = [f] ∧ t.line.queue = left.line.queue ++ [f]) ∧
      (s.bind.cursor = none → s.line.queue.Pairwise (fun a b => a.id ≠ b.id) →
        left.line.queue = s.line.queue.filter (fun x => !x.isBeacon)) ∧
      t = { left with line := { left.line with queue := t.line.queue, nextId := left.line.nextId + 1, beacon := some s.now } }

/-- R146, R147, R151: ten recessive bits in a row make the line READY, a dominant bit in WAIT_IDLE starts the count again, and
one in READY is the start bit of another station's frame: the line is in FRAME and holds the bits it reads of it, until the
frame ends; meanwhile no attempt starts. A frame that is broken or not good ends without any other effect. That LINE_READY
tells the node the bits and the line holds them is log 10's (DESIGN CHOICE), that a frame is read on exactly when its wire
bits begin with those held log 9's (DESIGN CHOICE), and that an ATTEMPT_START in FRAME leaves the state log 1's (DESIGN
CHOICE). -/
def Obligations.LineIdlesAndDiscards : Prop :=
  (∀ (s : State) (n : Nat), s.node.listens = true → s.line.state = .waitIdle n → n < 10 →
    exec (.lineReady (List.replicate (10 - n) true)) s = .next { s with line := { s.line with state := .ready } }) ∧
  (∀ (s : State) (n k : Nat), s.node.listens = true → s.line.state = .waitIdle n → n + k < 10 →
    exec (.lineReady (List.replicate k true ++ [false])) s = .next { s with line := { s.line with state := .waitIdle 0 } }) ∧
  (∀ (s : State) (k : Nat) (bits : List Bool), s.node.listens = true → s.line.state = .ready → runsOn 1 (false :: bits) →
    exec (.lineReady (List.replicate k true ++ false :: bits)) s =
      .next { s with line := { s.line with state := .frame, send := .hearing (false :: bits) } }) ∧
  (∀ (s : State) (r bits : List Bool), s.node.listens = true → s.line.state = .frame → s.line.send = .hearing r →
    runsOn r.length (r ++ bits) →
    exec (.lineReady bits) s = .next { s with line := { s.line with send := .hearing (r ++ bits) } }) ∧
  (∀ (s : State) (phase : BitVec 3), s.line.state = .frame → exec (.attemptStart phase) s = .next s) ∧
  (∀ (s : State) (r bits : List Bool), s.node.listens = true → s.line.send = .hearing r →
    (readsFrame s bits = true ↔ r <+: bits)) ∧
  ∀ (bits : List Bool) (s : State), readsFrame s bits = true → endsBad bits = true →
    exec (.frameDiscarded bits) s = .next { s with line := { s.line with state := .waitIdle 0, send := .idle } }

/-- R12, R13, R15, R44, R75, R86, R121, R129, R130, R153: a PASS of the upstream neighbour makes the approach record of R86,
alone for an identified car; a TAKEN, SHARED or SWEPT notice of the downstream neighbour makes the claim of R129, a YIELDED,
LATE or ABORTED one removes the claim of its identified car, whatever its lane, and any other leaves the claims. Every record
and every claim so entered is followed at once by the recheck of the grants (R121), the record's before the claim is looked
at; then, in SYNC and RUN, come steps 4 and 5 on the state so left: the order count at the car's entry (R75,
standingAfterPass) and the consumption of the request it names (R44, handsetsAfterPass); and nothing else is done. -/
def Obligations.NeighbourNoticesAreKept : Prop :=
  (∀ (bits : List Bool) (phase : BitVec 3) (s : State) (f : GoodFrame) (p : PassNotice) (o : Outcome),
    delivered s bits .pass f → s.node.watching = true → p = decodePass (payloadWord 88 f.payload) → p.outcome = some o →
    f.originator = s.working.upstream → f.originator ≠ 0 → s.working.gu ≠ 0 →
    let lane := if o = .yielded ∨ o = .late ∨ o = .aborted then p.laneIn else p.laneOut
    lane.num ≤ s.working.lanes →
    let tUp := Time.minus (stampOf s phase .pass) (min 32767 p.age)
    let pace := max 4 (min 4095 p.pace.ticks)
    let r : ApproachRecord :=
      { code := p.code, lane := lane, outcome := o, arrival := Time.plus tUp (travel s.working.gu pace),
        pace := { p.pace with ticks := pace }, window := upWindow s.working tUp pace,
        bladeTime := Time.plus tUp (travel (s.working.gu + s.working.ds) pace) }
    ∃ t, exec (.passReceived bits phase) s = .next t ∧ r ∈ t.occ.approach ∧
      (p.code ≠ 0 → ∀ x ∈ t.occ.approach, x.code = p.code → x = r) ∧
      (s.occ.up.address = f.originator → t.occ.up.lastHeard = some s.now) ∧
      t = { s with
        handsets := t.handsets
        bind := { s.bind with entries := t.bind.entries, cursor := t.bind.cursor }
        occ := { s.occ with
          list := t.occ.list, holds := t.occ.holds, approach := t.occ.approach, up := t.occ.up, down := t.occ.down }
        grants := t.grants
        blades := t.blades
        line := { s.line with state := .waitIdle 0, send := .idle, queue := t.line.queue, nextId := t.line.nextId } }) ∧
  (∀ (bits : List Bool) (phase : BitVec 3) (s : State) (f : GoodFrame) (p : PassNotice) (o : Outcome),
    delivered s bits .pass f → s.node.live = true → p = decodePass (payloadWord 88 f.payload) → p.outcome = some o →
    o = .taken ∨ o = .shared ∨ o = .swept → f.originator = s.working.downstream → f.originator ≠ 0 → s.working.gd ≠ 0 →
    p.laneOut.num ≤ s.working.lanes →
    let tDn := Time.minus (stampOf s phase .pass) (min 32767 p.age)
    let c : Claim :=
      { originator := f.originator, code := p.code, lane := p.laneOut,
        window := { start := Time.plus tDn p.startOffset, stop := Time.plus tDn (max p.startOffset p.endOffset) } }
    ∃ t, exec (.passReceived bits phase) s = .next t ∧ c ∈ t.grants.claims ∧
      (p.code ≠ 0 → ∀ x ∈ t.grants.claims, x.code = p.code → x = c) ∧
      t = { s with
        handsets := t.handsets
        bind := { s.bind with entries := t.bind.entries, cursor := t.bind.cursor }
        occ := { s.occ with
          list := t.occ.list, holds := t.occ.holds, approach := t.occ.approach, up := t.occ.up, down := t.occ.down }
        grants := t.grants
        blades := t.blades
        line := { s.line with state := .waitIdle 0, send := .idle, queue := t.line.queue, nextId := t.line.nextId } }) ∧
  (∀ (bits : List Bool) (phase : BitVec 3) (s : State) (f : GoodFrame) (p : PassNotice) (o : Outcome),
    delivered s bits .pass f → s.node.live = true → p = decodePass (payloadWord 88 f.payload) → p.outcome = some o →
    o ≠ .taken → o ≠ .shared → o ≠ .swept → f.originator = s.working.downstream → f.originator ≠ 0 → s.working.gd ≠ 0 →
    ∃ t, exec (.passReceived bits phase) s = .next t ∧
      t.grants.claims = (if o = .yielded ∨ o = .late ∨ o = .aborted
        then s.grants.claims.filter (fun c => decide (p.code = 0 ∨ c.code ≠ p.code)) else s.grants.claims) ∧
      t = { s with
        handsets := t.handsets
        bind := { s.bind with entries := t.bind.entries, cursor := t.bind.cursor }
        occ := { s.occ with
          list := t.occ.list, holds := t.occ.holds, approach := t.occ.approach, up := t.occ.up, down := t.occ.down }
        grants := t.grants
        blades := t.blades
        line := { s.line with state := .waitIdle 0, send := .idle, queue := t.line.queue, nextId := t.line.nextId } }) ∧
  ∀ (bits : List Bool) (phase : BitVec 3) (s : State) (f : GoodFrame) (p : PassNotice) (o : Outcome),
    delivered s bits .pass f → s.node.watching = true → p = decodePass (payloadWord 88 f.payload) → p.outcome = some o →
    let hear (r : NeighbourRecord) : NeighbourRecord :=
      if r.address = f.originator ∧ r.address ≠ 0 then { r with lastHeard := some s.now } else r
    let u : State := { s with
      occ := { s.occ with up := hear s.occ.up, down := hear s.occ.down }
      line := { s.line with state := .waitIdle 0, send := .idle } }
    let ended : Prop := o = .yielded ∨ o = .late ∨ o = .aborted
    let lane := if ended then p.laneIn else p.laneOut
    let sent := Time.minus (stampOf s phase .pass) (min 32767 p.age)
    let pace := max 4 (min 4095 p.pace.ticks)
    let r : ApproachRecord :=
      { code := p.code, lane := lane, outcome := o, arrival := Time.plus sent (travel s.working.gu pace),
        pace := { p.pace with ticks := pace }, window := upWindow s.working sent pace,
        bladeTime := Time.plus sent (travel (s.working.gu + s.working.ds) pace) }
    let c : Claim :=
      { originator := f.originator, code := p.code, lane := p.laneOut,
        window := { start := Time.plus sent p.startOffset, stop := Time.plus sent (max p.startOffset p.endOffset) } }
    let v := if f.originator = s.working.upstream ∧ f.originator ≠ 0 ∧ s.working.gu ≠ 0 ∧ lane.num ≤ s.working.lanes
      then recheck (enterApproach u r) (some r) else u
    let w := if s.node ≠ .fault ∧ f.originator = s.working.downstream ∧ f.originator ≠ 0 ∧ s.working.gd ≠ 0 then
        (if (o = .taken ∨ o = .shared ∨ o = .swept) ∧ p.laneOut.num ≤ s.working.lanes then recheck (enterClaim v c) none
         else if ended then { v with grants := { v.grants with
           claims := v.grants.claims.filter (fun x => decide (p.code = 0 ∨ x.code ≠ p.code)) } }
         else v)
      else v
    ∃ t, exec (.passReceived bits phase) s = .next t ∧
      t = { w with handsets := t.handsets, bind := { w.bind with entries := t.bind.entries } } ∧
      (s.node = .fault → t = w) ∧
      (s.node ≠ .fault → t.handsets = handsetsAfterPass w p ∧ ∀ c, t.bind.entries.get c =
        { w.bind.entries.get c with standing := standingAfterPass p o c (w.bind.entries.get c).standing })

/-- R44, R75, R91, R153, R174: a PASS consumes the request it names (handsetsAfterPass) and carries the order count to the
car's entry (standingAfterPass), whoever its originator is, a neighbour or any other node; an entry is as R75 leaves it where
no grant of its car has used an order, which a recheck for a neighbour's PASS might give back first (R74;
NeighbourNoticesAreKept). One from a node that is neither neighbour changes nothing else. One with an outcome code of 18 to
31, whoever sent it, does step 1 of R153 and nothing else, in FAULT too (heardOnly), and so changes no block where no
neighbour sent it. -/
def Obligations.PassConsumesAndCounts : Prop :=
  (∀ (bits : List Bool) (phase : BitVec 3) (s : State) (f : GoodFrame) (p : PassNotice) (o : Outcome),
    delivered s bits .pass f → s.node.live = true → p = decodePass (payloadWord 88 f.payload) → p.outcome = some o →
    ∃ t, exec (.passReceived bits phase) s = .next t ∧ t.handsets = handsetsAfterPass s p ∧
      (∀ c, (t.bind.entries.get c).handset = (s.bind.entries.get c).handset ∧
        (t.bind.entries.get c).stamp = (s.bind.entries.get c).stamp ∧
        (t.bind.entries.get c).origin = (s.bind.entries.get c).origin ∧ (t.bind.entries.get c).kept = (s.bind.entries.get c).kept) ∧
      ∀ c, (∀ l g d, s.grants.slots.get l = some g → g.code = c.code → g.used ≠ .order d) →
        (t.bind.entries.get c).standing = standingAfterPass p o c (s.bind.entries.get c).standing) ∧
  (∀ (bits : List Bool) (phase : BitVec 3) (s : State) (f : GoodFrame), delivered s bits .pass f → s.node.watching = true →
    (decodePass (payloadWord 88 f.payload)).outcome = none → exec (.passReceived bits phase) s = .next (heardOnly s f)) ∧
  ∀ (bits : List Bool) (phase : BitVec 3) (s : State) (f : GoodFrame) (p : PassNotice), delivered s bits .pass f →
    s.node.live = true → p = decodePass (payloadWord 88 f.payload) → f.originator ≠ s.working.upstream →
    f.originator ≠ s.working.downstream → f.originator ≠ s.occ.up.address → f.originator ≠ s.occ.down.address →
    let ended : State := { s with line := { s.line with state := .waitIdle 0, send := .idle } }
    (p.outcome = none → exec (.passReceived bits phase) s = .next ended) ∧
    ∀ o, p.outcome = some o →
      ∃ t, exec (.passReceived bits phase) s = .next t ∧
        t = { ended with handsets := handsetsAfterPass s p, bind := { s.bind with entries := t.bind.entries } } ∧
        ∀ c, t.bind.entries.get c =
          { s.bind.entries.get c with standing := standingAfterPass p o c (s.bind.entries.get c).standing }

/-- R91, R153: a BEACON sets the last-heard time of the record of its originator and, with values in range, its geometry; a
CFGD sets the last-heard time; neither does anything else. In FAULT a BIND, a JOIN and a HEAT set the last-heard time alone, and
in SETUP a frame of any kind but CFGR, CFGW and CFGX only ends on the line. -/
def Obligations.BeaconAndCfgdRefreshNeighbours : Prop :=
  let refreshed (s : State) (f : GoodFrame) (g : Option Geometry) (r : NeighbourRecord) : NeighbourRecord :=
    if r.address = f.originator ∧ r.address ≠ 0 then
      { r with
        lastHeard := some s.now
        geometry := match g with
          | some x =>
            if 40 ≤ x.ds ∧ x.ds ≤ 1023 ∧ 40 ≤ x.dm ∧ x.dm ≤ 1023 ∧ 2 ≤ x.lanes ∧ x.lanes ≤ 4 then some x else r.geometry
          | none => r.geometry }
    else r
  let after (s : State) (f : GoodFrame) (g : Option Geometry) : State :=
    { s with
      occ := { s.occ with up := refreshed s f g s.occ.up, down := refreshed s f g s.occ.down }
      line := { s.line with state := .waitIdle 0, send := .idle } }
  (∀ (bits : List Bool) (phase : BitVec 3) (s : State) (f : GoodFrame), delivered s bits .beacon f → s.node.watching = true →
    exec (.beaconReceived bits phase) s = .next (after s f (some (decodeBeacon (payloadWord 24 f.payload))))) ∧
  (∀ (bits : List Bool) (phase : BitVec 3) (s : State) (f : GoodFrame), delivered s bits .cfgd f → s.node.watching = true →
    exec (.cfgdReceived bits phase) s = .next (after s f none)) ∧
  (∀ (kind : FrameKind) (bits : List Bool) (phase : BitVec 3) (s : State) (f : GoodFrame),
    kind = .bind ∨ kind = .join ∨ kind = .heat → delivered s bits kind f → s.node = .fault →
    exec (received kind bits phase) s = .next (after s f none)) ∧
  ∀ (kind : FrameKind) (bits : List Bool) (phase : BitVec 3) (s : State) (f : GoodFrame),
    kind ≠ .cfgr → kind ≠ .cfgw → kind ≠ .cfgx → delivered s bits kind f → s.node = .setup →
    exec (received kind bits phase) s = .next { s with line := { s.line with state := .waitIdle 0, send := .idle } }

/-- R153, R158, R165, R166: in SETUP a setup frame of the tool whose target byte is the setup address is taken: a CFGR queues a
CFGD of the image, a CFGW with a right check byte begins a write and a CFGX enters LOAD, these two only while the NV store
is not busy. A CFGR, CFGW or CFGX of another originator, with another target byte, or read outside SETUP has no effect but
on the line and, in SYNC, RUN and FAULT, the last-heard time of a neighbour that sent it. -/
def Obligations.SetupFramesOfTheTool : Prop :=
  let forNode (s : State) (f : GoodFrame) : Prop := s.node = .setup ∧ f.originator = 63 ∧
    (payloadWord 8 (f.payload.take 8)).toNat = s.sup.setupAddress.toNat
  let ended (s : State) : State := { s with line := { s.line with state := .waitIdle 0, send := .idle } }
  (∀ (bits : List Bool) (phase : BitVec 3) (s : State) (f : GoodFrame), delivered s bits .cfgr f → forNode s f →
    ∃ q, queuedIn { id := s.line.nextId, level := 3, originator := s.sup.setupAddress, body := .cfgd s.sup.mirror.image,
                    deadline := Time.plus s.now 3906, queued := s.now, owner := .supervisor } s.line.queue q ∧
      exec (.cfgrReceived bits phase) s = .next { s with line := { s.line with
        state := .waitIdle 0, send := .idle, queue := q, nextId := s.line.nextId + 1 } }) ∧
  (∀ (bits : List Bool) (phase : BitVec 3) (s : State) (f : GoodFrame), delivered s bits .cfgw f → forNode s f →
    let b := decodeBlock (payloadWord 128 (f.payload.drop 8))
    exec (.cfgwReceived bits phase) s = .next
      (if s.sup.nvBusy = false ∧ b.check = checkByte b.fields then
        { ended s with
          nv := { s.nv with writeMark := 1 }
          sup := { s.sup with nvBusy := true, write := some { since := s.now, block := b } } }
      else ended s)) ∧
  (∀ (bits : List Bool) (phase : BitVec 3) (s : State) (f : GoodFrame), delivered s bits .cfgx f → forNode s f →
    s.sup.nvBusy = true → exec (.cfgxReceived bits phase) s = .next (ended s)) ∧
  (∀ (bits : List Bool) (phase : BitVec 3) (s : State) (f : GoodFrame), delivered s bits .cfgx f → forNode s f →
    s.sup.nvBusy = false → s.pins.trackPower = true → s.pins.resetHeld = false → s.sup.save = none → s.sup.write = none →
    ∃ t, exec (.cfgxReceived bits phase) s = .next t ∧ t.node = .load ∧ t.now = 0 ∧ t.sup.load = .reading 0 ∧
      t.sup.nvBusy = true ∧ t.line.queue = [] ∧ t.handsets = [] ∧ t.nv = s.nv) ∧
  ∀ (kind : FrameKind) (bits : List Bool) (phase : BitVec 3) (s : State) (f : GoodFrame),
    kind = .cfgr ∨ kind = .cfgw ∨ kind = .cfgx → delivered s bits kind f → ¬forNode s f →
    let hear (r : NeighbourRecord) : NeighbourRecord :=
      if s.node ≠ .setup ∧ r.address = f.originator ∧ r.address ≠ 0 then { r with lastHeard := some s.now } else r
    exec (received kind bits phase) s =
      .next { ended s with occ := { s.occ with up := hear s.occ.up, down := hear s.occ.down } }

/-- R30, R33, R34, R152, R170: a good frame of any kind that bears the node's own address in SYNC or RUN is delivered to no
block and takes the node to FAULT: nothing stays queued or granted, no blade is ARMED or THROWN, no emitter sends, and the
gates, whose blanking ends with a notice in progress and else runs to its end, the bindings and the occupancy list, but for
its grant links, are kept. -/
def Obligations.AddressClashEntersFault : Prop :=
  ∀ (kind : FrameKind) (bits : List Bool) (phase : BitVec 3) (s : State) (f : GoodFrame), readsFrame s bits = true →
    goodFrame bits = some f → f.kind = kind → s.node = .sync ∨ s.node = .run → f.originator = s.working.address →
    ∃ t, exec (received kind bits phase) s = .next t ∧ t.node = .fault ∧ t.line.queue = [] ∧ t.line.send = .idle ∧
      t.line.beacon = none ∧ t.grants = { slots := PerLane.const none, claims := [] } ∧
      (∀ l, (t.blades.get l).state = match (s.blades.get l).state with | .armed | .thrown => .cooling | x => x) ∧
      (∀ l, (s.blades.get l).state = .armed ∨ (s.blades.get l).state = .thrown →
        (t.blades.get l).coil = false ∧ (t.blades.get l).coolingEnd = some (Time.plus s.now 625)) ∧
      (∀ l, t.gates.get l = { s.gates.get l with
        sending := none, waiting := none,
        blanking := if (s.gates.get l).sending.isSome then none else (s.gates.get l).blanking }) ∧
      t.occ = { s.occ with list := s.occ.list.map (fun e => { e with link := none }) } ∧
      t.bind = { s.bind with runs := PerLane.const none, cursor := none } ∧
      t.handsets = s.handsets.map (fun e => { e with gesture := .none, fresh := false, request := none }) ∧
      t.now = s.now ∧ t.nv = s.nv ∧ t.pins = s.pins ∧ t.sup = { s.sup with cameOn := none } ∧ t.draws = s.draws

/-! ## Node supervisor (11) -/

/-- R1, R160, R161, R171: power-on of a part as delivered gives the reset state (log 4, DESIGN CHOICE); power-on and the reset
input enter LOAD at track time 0 with every collection empty and no coil driven, the read under way unless the reset input is
held, and its release begins it. That the block image and the working values stand until the read ends is log 7's (DEDUCED);
that a reset in HOLDUP stays in LOAD while the sense reads present is the model's choice (log 39, DESIGN CHOICE). -/
def Obligations.PowerOnAndResetEnterLoad : Prop :=
  let started (s t : State) (held : Bool) : Prop :=
    t.node = .load ∧ t.now = 0 ∧ t.sup.load = (if held then .heldInReset else .reading 0) ∧ t.sup.nvBusy = (!held) ∧
    t.sup.mirror = s.sup.mirror ∧ t.sup.heatReleased = none ∧ t.sup.save = none ∧ t.sup.write = none ∧
    t.handsets = [] ∧ t.occ.list = [] ∧ t.occ.approach = [] ∧ t.grants = { slots := PerLane.const none, claims := [] } ∧
    (∀ l, (t.blades.get l).coil = false ∧ t.gates.get l = Gate.off ∧ t.occ.holds.get l = none) ∧
    t.line.queue = [] ∧ t.line.send = .idle ∧ t.bind.cursor = none ∧ t.pins.resetHeld = held
  exec (.powerOn false) State.delivered = .next State.reset ∧
  (∀ (s : State) (held : Bool), s.node = .off → s.sup.save = none → s.sup.write = none →
    ∃ t, exec (.powerOn held) s = .next t ∧ started s t held ∧ t.nv = s.nv ∧ t.pins.trackPower = true) ∧
  (∀ s : State, s.node ≠ .off → s.pins.trackPower = true →
    ∃ t, exec .resetAssert s = .next t ∧ started s t true ∧
      t.nv.writeMark = s.nv.writeMark ∧ t.nv.saveMark = s.nv.saveMark ∧
      (s.sup.save = none → s.sup.write = none → t.nv = s.nv)) ∧
  ∀ s : State, s.node = .load → s.sup.load = .heldInReset →
    exec .resetRelease s = .next { s with
      pins := { s.pins with resetHeld := false }, sup := { s.sup with nvBusy := true, load := .reading s.now } }

/-- R68, R134, R161, R163, R164, R177: at the end of the read the image and the binding entries are taken from the store; an
invalid block leads to SETUP at setup address 0 with the working values kept (that they are is log 34's, DEDUCED), a
valid one sets the working values and the setup address and begins the first tested lane's pulse, or leaves LOAD by the
strap when no lane is tested. A block is valid exactly when its write mark, its check byte and its fields pass the tests of
R163, each field at its place of R177. The blades stand as they stood where no pulse begins, and a blade under its pulse
stands ABSENT with its coil on, by log 6 (DESIGN CHOICE); the strap comes with the command by log 35 (DESIGN CHOICE), and
the unsaved mark is clear from here on by log 38 (DESIGN CHOICE). -/
def Obligations.LoadReadJudgesTheBlock : Prop :=
  let read (s t : State) : Prop := t.sup.mirror.image = s.nv.block ∧ t.sup.nvBusy = false ∧ t.bind.unsaved = false ∧
    t.bind.entries = (if s.nv.saveMark = 1 then restoreEntries s.nv.records
      else CodeTable.const { handset := none, stamp := 0, origin := 63, kept := false, standing := .empty }) ∧
    t.nv = s.nv ∧ t.now = s.now ∧ t.handsets = s.handsets ∧ t.grants = s.grants
  (∀ (s : State) (t : Time) (strap : Bool), s.sup.load = .reading t → s.node = .load →
    arrived s.now (Time.plus t 469) = true → s.nv.block.valid s.nv.writeMark = false →
    ∃ u, exec (.loadReadComplete strap) s = .next u ∧ read s u ∧ u.node = .setup ∧ u.sup.setupAddress = 0 ∧
      u.sup.mirror.working = s.sup.mirror.working ∧ u.blades = s.blades ∧ u.line.queue = []) ∧
  (∀ (s : State) (t : Time) (strap : Bool) (l : Lane), s.sup.load = .reading t → s.node = .load →
    arrived s.now (Time.plus t 469) = true → s.nv.block.valid s.nv.writeMark = true →
    nextTested (readFields s.nv.block.fields).working 0 = some l →
    ∃ u, exec (.loadReadComplete strap) s = .next u ∧ read s u ∧ u.node = .load ∧
      u.sup.mirror.working = (readFields s.nv.block.fields).working ∧
      u.sup.setupAddress = (readFields s.nv.block.fields).address ∧ u.sup.load = .pulse l s.now ∧
      u.blades = s.blades.set l { state := .absent, throwAt := none, releaseAt := none, coolingEnd := none, coil := true,
                                  drivenSince := none }) ∧
  (∀ (s : State) (t : Time) (strap : Bool), s.sup.load = .reading t → s.node = .load →
    arrived s.now (Time.plus t 469) = true → s.nv.block.valid s.nv.writeMark = true → s.handsets = [] →
    nextTested (readFields s.nv.block.fields).working 0 = none →
    ∃ u, exec (.loadReadComplete strap) s = .next u ∧ read s u ∧ u.node = (if strap then .setup else .sync) ∧
      u.sup.mirror.working = (readFields s.nv.block.fields).working ∧
      u.sup.setupAddress = (readFields s.nv.block.fields).address ∧ u.blades = s.blades) ∧
  ∀ (b : Block) (mark : Byte),
    let x (low width : Nat) : Nat := b.fields.toNat / 2 ^ low % 2 ^ width
    let side (n : Nat) : Nat := x (99 - 2 * n) 2
    (b.valid mark = true ↔ mark = 0 ∧
      b.check = ~~~(((List.range 15).map (fun i => BitVec.ofNat 8 (x (8 * i) 8))).foldl (fun y z => y ^^^ z) 0) ∧
      (1 ≤ x 114 6 ∧ x 114 6 ≤ 62) ∧ (x 108 6 ≤ 62 ∧ x 108 6 ≠ x 114 6) ∧ (x 102 6 ≤ 62 ∧ x 102 6 ≠ x 114 6) ∧
      (2 ≤ x 99 3 ∧ x 99 3 ≤ 4) ∧
      (∀ n, 1 ≤ n → n ≤ x 99 3 → side n ≠ 3 ∧ (n = 1 → side n ≠ 1) ∧ (n = x 99 3 → side n ≠ 2)) ∧
      (8 ≤ x 85 6 ∧ x 85 6 ≤ 63) ∧ (40 ≤ x 75 10 ∧ x 75 10 ≤ 1023) ∧ (40 ≤ x 65 10 ∧ x 65 10 ≤ 1023) ∧
      (x 44 13 = 0 ∨ 200 ≤ x 44 13) ∧ (x 31 13 = 0 ∨ 200 ≤ x 31 13) ∧ 16 ≤ x 15 8 ∧
      (2 ≤ x 9 6 ∧ x 9 6 ≤ 32) ∧ (1 ≤ x 4 5 ∧ x 4 5 ≤ 16)) ∧
    let w := (readFields b.fields).working
    w.address.toNat = x 114 6 ∧ w.upstream.toNat = x 108 6 ∧ w.downstream.toNat = x 102 6 ∧ w.lanes = x 99 3 ∧
    (∀ l : Lane, w.sides.get l = if side l.num = 1 then some .left else if side l.num = 2 then some .right else none) ∧
    w.w = x 85 6 ∧ w.ds = x 75 10 ∧ w.dm = x 65 10 ∧ w.lc = x 57 8 ∧ w.gu = x 44 13 ∧ w.gd = x 31 13 ∧
    w.guard = x 23 8 ∧ w.lead = x 15 8 ∧ w.requestHold = x 9 6 ∧ w.blindHold = x 4 5

/-- R39, R48, R65, R66, R76, R92, R93, R132, R141, R143, R158, R167, R168, R169: the fall of track power in SYNC or RUN is taken
as HOLDUP, where a save begins if one is needed, an ARMED or THROWN blade turns to COOLING with its coil off, and the handset
entries stay without gestures and requests; the return of power starts the debounce, whose end is the warm restart into SYNC
with a JOIN queued, where every handset entry stays as it stood with its resync mark set, but for unbound stale ones, which
go at once; and RUN follows 7813 ticks later. -/
def Obligations.HoldupAndWarmRestart : Prop :=
  (∀ s : State, s.node = .sync ∨ s.node = .run →
    ∃ t, exec (.trackPowerAbsent true) s = .next t ∧ t.node = .holdup ∧ t.now = s.now ∧
      t.line.queue = [] ∧ t.line.send = .idle ∧ t.line.beacon = none ∧
      t.grants = { slots := PerLane.const none, claims := [] } ∧ t.occ.list = [] ∧ t.occ.approach = [] ∧
      (∀ l, t.gates.get l = Gate.off ∧ t.occ.holds.get l = none ∧ t.occ.lastClose.get l = none ∧ t.bind.runs.get l = none) ∧
      t.occ.up = { s.occ.up with lastHeard := none } ∧ t.occ.down = { s.occ.down with lastHeard := none } ∧
      t.handsets = s.handsets.map (fun e => { e with gesture := .none, fresh := false, request := none }) ∧
      (∀ c, t.bind.entries.get c = { s.bind.entries.get c with standing := .empty }) ∧ t.bind.cursor = none ∧
      (∀ l, t.blades.get l = if (s.blades.get l).state = .armed ∨ (s.blades.get l).state = .thrown
        then { state := .cooling, throwAt := none, releaseAt := none, coolingEnd := some (Time.plus s.now 625), coil := false,
               drivenSince := none }
        else s.blades.get l) ∧
      (s.bind.unsaved = true → t.sup.save = some s.now ∧ t.sup.nvBusy = true ∧ t.nv = { s.nv with saveMark := 0 }) ∧
      (s.bind.unsaved = false → t.nv = s.nv ∧ t.sup.save = s.sup.save)) ∧
  (∀ s : State, s.node = .holdup → s.sup.debounce = none →
    exec .trackPowerReturn s = .next { s with
      pins := { s.pins with trackPower := true }, sup := { s.sup with debounce := some s.now } }) ∧
  (∀ s : State, s.node = .holdup →
    exec (.trackPowerAbsent true) s = .next { s with
      pins := { s.pins with trackPower := false, retentionHigh := true }, sup := { s.sup with debounce := none } }) ∧
  (∀ (s : State) (b : Time), s.node = .holdup → s.sup.debounce = some b → arrived s.now (Time.plus b 2344) = true →
    ∃ t, exec .debounceComplete s = .next t ∧ t.node = .sync ∧ t.now = s.now ∧ t.sup.cameOn = some s.now ∧
      (∃ f, t.line.queue = [f] ∧ f.body = .join ∧ f.level = 2 ∧ f.deadline = Time.plus s.now 7813) ∧
      t.line.state = .waitIdle 0 ∧ t.line.beacon = some s.now ∧
      t.occ.up.lastHeard = some (s.occ.up.lastHeard.getD s.now) ∧
      t.handsets = (s.handsets.filter (fun e => decide (∃ c, (s.bind.entries.get c).handset = some e.address)
        || !arrived s.now (Time.plus e.lastHeard 31250))).map (fun e => { e with resync := true }) ∧
      t.bind = s.bind ∧ t.blades = s.blades ∧ t.grants = s.grants ∧ t.nv = s.nv) ∧
  ∀ (s : State) (t : Time), s.node = .sync → s.sup.cameOn = some t → arrived s.now (Time.plus t 7813) = true →
    exec .syncEnd s = .next { s with node := .run }

/-- R67, R160, R168, R169, R171: retention that reads low in HOLDUP, or ends in any state, track power that is absent in LOAD,
SETUP or FAULT, and a reset taken while track power is absent, take the node to OFF, which drives nothing and keeps the store
alone; a save in flight leaves its mark as the save's start wrote it. Track power that falls in SYNC or RUN, or again in
HOLDUP, with retention low does so too; the save that the entry to HOLDUP would begin is cut at its start, so that the save
area is left invalid where the unsaved mark was set. R160 leaves everything else lost; that the lost fields stand empty in
OFF, at track time 0, is the model's choice (log 29, DESIGN CHOICE), and so are the values that the mirror then holds (log 5,
DESIGN CHOICE). -/
def Obligations.OffKeepsOnlyTheStore : Prop :=
  let off (s t : State) : Prop :=
    t.node = .off ∧ t.handsets = [] ∧ t.occ.list = [] ∧ t.occ.approach = [] ∧
    t.grants = { slots := PerLane.const none, claims := [] } ∧ t.line.queue = [] ∧ t.line.send = .idle ∧
    t.line.beacon = none ∧ t.bind.cursor = none ∧ t.bind.unsaved = false ∧ t.now = 0 ∧
    (∀ c, t.bind.entries.get c = { handset := none, stamp := 0, origin := 63, kept := false, standing := .empty }) ∧
    (∀ l, t.gates.get l = Gate.off ∧ t.occ.holds.get l = none ∧ t.occ.lastClose.get l = none ∧ t.bind.runs.get l = none ∧
      t.blades.get l = { state := .absent, throwAt := none, releaseAt := none, coolingEnd := none, coil := false,
                         drivenSince := none }) ∧
    t.occ.up = { address := 0, lastHeard := none, geometry := none } ∧
    t.occ.down = { address := 0, lastHeard := none, geometry := none } ∧
    t.sup = { mirror := { image := Block.default, working := Working.default }, setupAddress := 0, nvBusy := false,
              cameOn := none, debounce := none, heatReleased := none, load := .idle, save := none, write := none } ∧
    t.nv.writeMark = s.nv.writeMark ∧ t.nv.saveMark = s.nv.saveMark ∧
    (s.sup.save = none → s.sup.write = none → t.nv = s.nv)
  (∀ s : State, s.node = .holdup → ∃ t, exec .retentionLow s = .next t ∧ off s t) ∧
  (∀ s : State, s.node ≠ .off → ∃ t, exec .retentionEnds s = .next t ∧ off s t) ∧
  (∀ (s : State) (high : Bool), s.node = .load ∨ s.node = .setup ∨ s.node = .fault →
    ∃ t, exec (.trackPowerAbsent high) s = .next t ∧ off s t) ∧
  (∀ s : State, s.node ≠ .off → s.pins.trackPower = false → ∃ t, exec .resetAssert s = .next t ∧ off s t) ∧
  (∀ s : State, s.node = .holdup → ∃ t, exec (.trackPowerAbsent false) s = .next t ∧ off s t) ∧
  ∀ s : State, s.node = .sync ∨ s.node = .run →
    ∃ t, exec (.trackPowerAbsent false) s = .next t ∧
      (s.bind.unsaved = false → off s t) ∧
      (s.bind.unsaved = true → off { s with nv := { s.nv with saveMark := 0 }, sup := { s.sup with save := some s.now } } t ∧
        (s.sup.write = none → t.nv.block = s.nv.block))
end

