-- ==== Sys2Proof/Laws/Tables.lean ====
section
/-! SUPPORT. The tables by lane and by car code: reading after writing, changing and filling. -/

namespace Sys2Proof

variable {α β : Type}

@[simp] theorem PerLane.get_set_self (p : PerLane α) (l : Lane) (x : α) : (p.set l x).get l = x := by cases l <;> rfl

@[simp] theorem PerLane.get_set_ne (p : PerLane α) {l m : Lane} (x : α) (h : m ≠ l) : (p.set l x).get m = p.get m := by
  cases l <;> cases m <;> first | rfl | exact absurd rfl h

theorem PerLane.get_set (p : PerLane α) (l m : Lane) (x : α) : (p.set l x).get m = if m = l then x else p.get m := by
  cases l <;> cases m <;> rfl

@[simp] theorem PerLane.get_map (f : α → β) (p : PerLane α) (l : Lane) : (p.map f).get l = f (p.get l) := by cases l <;> rfl

@[simp] theorem PerLane.get_const (x : α) (l : Lane) : (PerLane.const x).get l = x := by cases l <;> rfl

@[simp] theorem PerLane.get_ofFn (f : Lane → α) (l : Lane) : (PerLane.ofFn f).get l = f l := by cases l <;> rfl

@[simp] theorem PerLane.set_get (p : PerLane α) (l : Lane) : p.set l (p.get l) = p := by cases l <;> rfl

@[simp] theorem PerLane.set_set (p : PerLane α) (l : Lane) (x y : α) : (p.set l x).set l y = p.set l y := by
  cases l <;> rfl

theorem PerLane.ext_get {p q : PerLane α} (h : ∀ l, p.get l = q.get l) : p = q := by
  cases p; cases q
  have h1 := h .l1; have h2 := h .l2; have h3 := h .l3; have h4 := h .l4
  simp_all [PerLane.get]

@[simp] theorem CodeTable.get_set_self (t : CodeTable α) (c : Car) (x : α) : (t.set c x).get c = x := by
  simp [CodeTable.get, CodeTable.set]

theorem CodeTable.get_set (t : CodeTable α) (c d : Car) (x : α) : (t.set c x).get d = if d = c then x else t.get d := by
  by_cases h : d = c
  · subst h; simp
  · have hv : c.val ≠ d.val := fun e => h (Fin.ext e.symm)
    simp [CodeTable.get, CodeTable.set, h, hv]

@[simp] theorem CodeTable.get_set_ne (t : CodeTable α) {c d : Car} (x : α) (h : d ≠ c) : (t.set c x).get d = t.get d := by
  simp [CodeTable.get_set, h]

@[simp] theorem CodeTable.get_map (f : α → β) (t : CodeTable α) (c : Car) : (t.map f).get c = f (t.get c) := by
  simp [CodeTable.get, CodeTable.map]

@[simp] theorem CodeTable.get_const (x : α) (c : Car) : (CodeTable.const x).get c = x := by
  simp only [CodeTable.get, CodeTable.const, List.getElem_replicate]

@[simp] theorem CodeTable.set_set (t : CodeTable α) (c : Car) (x y : α) : (t.set c x).set c y = t.set c y := by
  simp [CodeTable.set]

@[simp] theorem CodeTable.set_get (t : CodeTable α) (c : Car) : t.set c (t.get c) = t := by
  cases t; simp [CodeTable.set, CodeTable.get]

/-- The list of all cars holds each car at its own place. -/
theorem Car.all_get (c : Car) (h : c.val < Car.all.length) : Car.all[c.val] = c := by
  revert h; revert c; decide

@[simp] theorem CodeTable.get_ofFn (f : Car → α) (c : Car) : (CodeTable.ofFn f).get c = f c := by
  simp [CodeTable.get, CodeTable.ofFn, Car.all_get]

theorem CodeTable.ext_get {t u : CodeTable α} (h : ∀ c, t.get c = u.get c) : t = u := by
  cases t with | mk ts ht =>
  cases u with | mk us hu =>
  have : ts = us := by
    apply List.ext_getElem (by omega)
    intro i h1 h2
    exact h ⟨i, by omega⟩
  subst this; rfl

/-- Every car is listed. -/
@[simp] theorem Car.mem_all (c : Car) : c ∈ Car.all := by revert c; decide

/-- Every lane is listed. -/
@[simp] theorem Lane.mem_all (l : Lane) : l ∈ Lane.all := by cases l <;> decide

/-- The entry of an entry's code is the entry. -/
@[simp] theorem Car.ofCode_code (c : Car) : Car.ofCode c.code = some c := by revert c; decide

end Sys2Proof
end

