-- ==== Sys2Proof/Laws/Bindings.lean ====
section
/-! SUPPORT. What a newer proposal does at the handset table (R39, R53). -/

namespace Sys2Proof.Machine

open Sys2Proof.Safety

/-- R39, R53: what a newer proposal does at the handset table. -/
theorem applyProposal_handsets (s : State) (p : Proposal) :
    (applyProposal s p).handsets = handsetsRebound s p.car p.handset := by
  unfold applyProposal handsetsRebound
  cases hb : (s.bind.entries.get p.car).handset with
  | none => simp [hb]
  | some a =>
    simp only [hb]
    by_cases hp : p.handset = some a
    · rw [if_pos hp]; symm; rw [List.filter_eq_self]; intro x _; simp [hp]
    · rw [if_neg hp]
      set s' : State := { s with bind := { s.bind with entries := p.entries s.bind.entries, unsaved := true } }
      have hbd : isBound s' a = decide (∃ d, d ≠ p.car ∧ (s.bind.entries.get d).handset = some a) := by
        have : isBound s' a = (boundCar s'.bind.entries a).isSome := rfl
        rw [this]; unfold boundCar; rw [Bool.eq_iff_iff]
        simp only [List.find?_isSome, Car.mem_all, true_and, decide_eq_true_eq]
        constructor
        · rintro ⟨c, hc⟩
          refine ⟨c, ?_⟩
          simp only [s', Proposal.entries, CodeTable.get_set] at hc
          by_cases h : c = p.car
          · subst h; simp [Proposal.entry] at hc; exact absurd hc hp
          · rw [if_neg h, CodeTable.get_map] at hc
            refine ⟨h, ?_⟩
            unfold Binding.freedFrom at hc; split at hc
            · simp [Binding.freed] at hc
            · exact hc
        · rintro ⟨c, h, hc⟩
          refine ⟨c, ?_⟩
          simp only [s', Proposal.entries, CodeTable.get_set, if_neg h, CodeTable.get_map]
          unfold Binding.freedFrom; rw [if_neg]
          · exact hc
          · intro h'; apply hp; rw [← h'.2, hc]
      unfold toldUnbound
      rw [hbd]
      by_cases hex : ∃ d, d ≠ p.car ∧ (s.bind.entries.get d).handset = some a
      · rw [if_pos (by simpa using hex)]; symm
        rw [List.filter_eq_self]; intro x _
        obtain ⟨d, h1, h2⟩ := hex
        by_cases hx : x.address = a
        · simp [hx, hp]; exact .inl ⟨d, h1, h2⟩
        · simp [Ne.symm hx]
      · rw [if_neg (by simpa using hex)]
        have hall : ∀ d, d ≠ p.car → (s.bind.entries.get d).handset ≠ some a := fun d h1 h2 => hex ⟨d, h1, h2⟩
        have he : handsetEntry s' a = handsetEntry s a := rfl
        rw [he]
        cases hh : handsetEntry s a with
        | none =>
          symm; rw [List.filter_eq_self]; intro x _
          by_cases hx : x.address = a
          · simp [hx, hh]
          · simp [Ne.symm hx]
        | some e =>
          simp only
          by_cases hst : isStale s'.now e = true
          · rw [if_pos hst]
            unfold State.dropHandset; apply List.filter_congr; intro x _
            by_cases hx : x.address = a
            · simp [hx, hh, hp]
              exact ⟨hall, hst⟩
            · simp [hx, Ne.symm hx]
          · rw [if_neg hst]; symm; rw [List.filter_eq_self]; intro x _
            by_cases hx : x.address = a
            · simp [hx, hh]; exact .inr (by simpa [isStale, s', Config.staleTicks] using hst)
            · simp [Ne.symm hx]

end Sys2Proof.Machine
end

