-- ==== Sys2Proof/Laws/Checks.lean ====
section
/-! SUPPORT. What the model computes, against its wording in Safety.lean: each check of a decision is true exactly when its wording
holds, an entry in order stands where its wording says, and a decoded code is told as its wording says. -/

namespace Sys2Proof.Machine

open Sys2Proof.Safety

/-- R2. -/
theorem within_iff (w : Window) (t : Time) : w.contains t = true ↔ within w t := by simp [Window.contains, within]

/-- R16. -/
theorem overlap_iff (v w : Window) : v.conflicts w = true ↔ overlap v w := by simp [Window.conflicts, overlap]

/-- R110: a car that no check sets aside. -/
theorem setAside_iff (codes : List CarCode) (c : CarCode) : setAside codes c = false ↔ c = 0 ∨ c ∉ codes := by
  unfold setAside
  by_cases h : c = 0#4 <;> simp [h]

/-- R110. -/
theorem followingConflict_iff (s : State) (lane : Lane) (aside : List CarCode) (hold : Window) :
    followingConflict s lane aside hold = true ↔ followingMet s lane aside hold := by
  simp only [followingConflict, followingMet, Bool.or_eq_true, List.any_eq_true, Bool.and_eq_true, decide_eq_true_eq,
    Bool.not_eq_true', setAside_iff, within_iff, bladeTime, and_assoc]

/-- R16, R79: a window against one whose end may be open. -/
theorem meets_iff (w : Window) (start : Time) (stop : WindowEnd) :
    w.meets start stop = true ↔
      (∃ t, stop = .at t ∧ overlap w ⟨start, t⟩) ∨ (stop = .open ∧ Time.atOrBefore start w.stop = true) := by
  cases stop <;> simp [Window.meets, overlap_iff]

/-- R111. -/
theorem targetConflict_iff (s : State) (target : Lane) (w : Window) (own : Option Lane) :
    targetConflict s target w own = true ↔ targetMet s target w own := by
  simp only [targetConflict, targetMet, Bool.or_eq_true, List.any_eq_true, Bool.and_eq_true, decide_eq_true_eq,
    Bool.not_eq_true', meets_iff, overlap_iff, ne_eq]
  refine or_congr (exists_congr fun e => and_congr_right fun _ => ?_) Iff.rfl
  rw [← Bool.not_eq_true, and_assoc, and_comm (b := ¬_)]
  simp only [Bool.and_eq_true, decide_eq_true_eq, Option.isSome_iff_ne_none, and_assoc, ne_eq]

/-- R92. -/
theorem isBlind_iff (s : State) :
    isBlind s = true ↔ s.working.gu ≠ 0 ∧ ∃ h, s.occ.up.lastHeard = some h ∧ arrived s.now (Time.plus h 15625) = true := by
  unfold isBlind isSilent
  cases s.occ.up.lastHeard <;> simp [Config.silenceTicks]

/-- R112. -/
theorem blindConflict_iff (s : State) (target : Lane) (d : Time) : blindConflict s target d = true ↔ blindMet s target d := by
  unfold blindConflict blindMet
  rw [Bool.and_eq_true, isBlind_iff, and_assoc]
  cases s.occ.lastClose.get target <;>
    simp [Time.spanExceeds, blindHoldTicks, Config.holdUnit]

/-- R113. -/
theorem downstreamConflict_iff (s : State) (target : Lane) (tRef : Time) (pace : Nat) :
    downstreamConflict s target tRef pace = true ↔ downstreamMet s target tRef pace := by
  unfold downstreamConflict downstreamMet
  rw [Bool.and_eq_true, List.any_eq_true, decide_eq_true_eq]
  cases s.occ.down.geometry <;> simp [overlap_iff, downstreamWindow]

/-- R122. -/
theorem provisionalConflict_iff (s : State) (l : Lane) (g : Grant) : provisionalConflict s l g = true ↔ recheckMet s l g := by
  simp only [provisionalConflict, recheckMet, Bool.or_eq_true, followingConflict_iff, targetConflict_iff, blindConflict_iff,
    downstreamConflict_iff, or_assoc]

/-- R43: the latched request of a handset. -/
theorem latchedRequest_iff (s : State) (h : HandsetAddr) (r : Request) :
    latchedRequest s h = some r ↔ ∃ e, handsetEntry s h = some e ∧ e.request = some r := by
  unfold latchedRequest
  cases handsetEntry s h <;> simp

/-- R43: a handset without a latched request. -/
theorem latchedRequest_none (s : State) (h : HandsetAddr) :
    latchedRequest s h = none ↔ ∀ e, handsetEntry s h = some e → e.request = none := by
  unfold latchedRequest
  cases handsetEntry s h <;> simp

/-- R72, R96: what a car asks for. -/
theorem asks_iff (s : State) (code : CarCode) (h : HandsetAddr) (q : CarRequest) :
    asks s code h q ↔ boundHandset s code = some h ∧ requestOf s code = some q := by
  unfold asks boundHandset requestOf
  cases hc : Car.ofCode code with
  | none => simp
  | some car =>
    simp only [Option.some.injEq, exists_eq_left']
    refine and_congr_right fun hb => ?_
    rw [hb]
    simp only
    cases hl : latchedRequest s h with
    | some r =>
      obtain ⟨e, he, hr⟩ := (latchedRequest_iff s h r).1 hl
      simp [he, hr, eq_comm]
    | none =>
      have hn := (latchedRequest_none s h).1 hl
      obtain ⟨dir, used⟩ := q
      constructor
      · rintro (⟨e, r, he, hr, -⟩ | ⟨-, n, ho, hu⟩)
        · rw [hn e he] at hr; cases hr
        · simp only at hu; rw [ho, hu]
      · intro hq
        refine .inr ⟨hn, ?_⟩
        cases hs : (s.bind.entries.get car).standing <;> rw [hs] at hq <;> simp at hq
        obtain ⟨rfl, rfl⟩ := hq
        exact ⟨_, rfl, rfl⟩

/-- R102. -/
theorem mayShare_iff (s : State) (r : PassageRecord) (d : Dir) (target : Lane) (hold : Window) :
    ((candidate s r).requests d && mayShare s (candidate s r) target (grantCode s r.lane) hold) = true ↔
      sharing s r d target hold := by
  have hq : (candidate s r).requests d = true ↔ ∃ h q, asks s r.code h q ∧ q.dir = d := by
    simp only [asks_iff, Candidate.requests, candidate]
    cases hr : requestOf s r.code with
    | none => simp
    | some q =>
      have hb : ∃ h, boundHandset s r.code = some h := by
        unfold requestOf at hr
        unfold boundHandset
        split at hr
        · cases hr
        · next car hc =>
          rw [hc]
          simp only at hr ⊢
          split at hr
          · cases hr
          · next h hh => exact ⟨h, hh⟩
      obtain ⟨h, hb⟩ := hb
      simp [hb]
  have hi : gateConflict s target = false ↔ (s.gates.get target).state = .idle := by
    unfold gateConflict Gate.isIdle
    cases (s.gates.get target).state <;> simp
  have hc : r.code :: (grantCode s r.lane).toList = r.code :: ((s.grants.slots.get r.lane).map (·.code)).toList := rfl
  rw [Bool.and_eq_true, hq]
  unfold sharing
  refine and_congr_right fun _ => ?_
  simp only [mayShare, candidate, isHeld, Bool.and_eq_true, Bool.not_eq_true', hi, hc,
    ← Bool.not_eq_true (followingConflict _ _ _ _), ← Bool.not_eq_true (targetConflict _ _ _ _),
    ← Bool.not_eq_true (blindConflict _ _ _), followingConflict_iff, targetConflict_iff, blindConflict_iff, and_assoc]
  simp

/-- R85, R128: an element is entered just before the first one that is later. -/
theorem enterInOrder_entered {α : Type} {p : α → Bool} {later : α → Prop} (h : ∀ y, p y = true ↔ later y) (x : α) (xs : List α) :
    enteredBefore later x xs (enterInOrder p x xs) := by
  induction xs with
  | nil => exact ⟨[], [], rfl, rfl, by simp, by simp⟩
  | cons y ys ih =>
    unfold enterInOrder
    split
    · rename_i hy
      exact ⟨[], y :: ys, rfl, rfl, by simp, by simpa using (h y).1 hy⟩
    · rename_i hy
      obtain ⟨a, b, rfl, h2, h3, h4⟩ := ih
      refine ⟨y :: a, b, rfl, by simp [h2], ?_, h4⟩
      simp only [List.mem_cons, forall_eq_or_imp]
      exact ⟨fun hl => hy ((h y).2 hl), h3⟩

/-- SYNC and RUN. -/
theorem live_iff (n : NodeState) : n.live = true ↔ n = .sync ∨ n = .run := by cases n <;> simp [NodeState.live]

/-- R27, R54, R59, R79: a new decoded code is told to the occupancy block and the binding table. -/
theorem codeTold_eq (s : State) (l : Lane) (c : CarCode) : codeTold s l c = reportCode s l c := by
  have hn : (s.setOccupancy (s.occ.list.map (OccupancyEntry.recode l c))).node = s.node := rfl
  unfold codeTold reportCode codeReported occupancyCode
  rw [hn]
  by_cases h : s.node = .sync ∨ s.node = .run
  · rw [if_pos h, if_pos ((live_iff _).2 h)]
    congr 1
    unfold endRunOnCode
    show _ = match s.bind.runs.get l with | some r => _ | none => _
    cases s.bind.runs.get l with
    | none => simp; rfl
    | some r => by_cases hc : r.car.code = c <;> simp [hc] <;> rfl
  · rw [if_neg h, if_neg (fun h' => h ((live_iff _).1 h'))]
    rfl

end Sys2Proof.Machine
end

