-- ==== Sys2Proof/Laws/Frames.lean ====
section
/-! SUPPORT. What each shared operation can change: one lemma per operation, `op s = { s with the parts it writes }`, so that a
proof about another part of the state need not unfold it. -/

namespace Sys2Proof.Machine

/-! ## Queue and replay cursor -/

/-- A feed writes the queue, the frame counter and the cursor. -/
theorem feedOnce_frame (s : State) : ∃ q n c, feedOnce s =
    { s with line := { s.line with queue := q, nextId := n }, bind := { s.bind with cursor := c } } := by
  unfold feedOnce
  split
  · exact ⟨_, _, _, rfl⟩
  · split
    · exact ⟨_, _, _, rfl⟩
    · split <;> exact ⟨_, _, _, rfl⟩

theorem feedTimes_frame (n : Nat) (s : State) : ∃ q k c, feedTimes n s =
    { s with line := { s.line with queue := q, nextId := k }, bind := { s.bind with cursor := c } } := by
  induction n generalizing s with
  | zero => exact ⟨_, _, _, rfl⟩
  | succ n ih =>
    obtain ⟨q, k, c, h⟩ := feedOnce_frame s
    obtain ⟨q', k', c', h'⟩ := ih (feedOnce s)
    exact ⟨q', k', c', by rw [feedTimes, h', h]⟩

/-- Feeding writes the queue, the frame counter and the cursor. -/
theorem feed_frame (s : State) : ∃ q k c, feed s =
    { s with line := { s.line with queue := q, nextId := k }, bind := { s.bind with cursor := c } } :=
  feedTimes_frame _ s

/-- Removing a frame writes the queue, the frame counter and the cursor. -/
theorem removeFrame_frame (s : State) (id : Nat) : ∃ q k c, removeFrame s id =
    { s with line := { s.line with queue := q, nextId := k }, bind := { s.bind with cursor := c } } := by
  unfold removeFrame
  split
  · obtain ⟨q, k, c, h⟩ := feed_frame (s.setQueue (s.line.queue.filter (fun f => decide (f.id ≠ id))))
    exact ⟨q, k, c, by rw [h]; rfl⟩
  · exact ⟨_, _, _, rfl⟩

/-! ## Bindings and handsets -/

/-- Restoring an order writes the binding entries. -/
theorem restoreOrder_frame (s : State) (c : CarCode) (d : Dir) : ∃ e, restoreOrder s c d =
    { s with bind := { s.bind with entries := e } } := by
  unfold restoreOrder
  split <;> exact ⟨_, rfl⟩

/-- Telling the port of an unbound handset writes the handset table. -/
theorem toldUnbound_frame (s : State) (h : HandsetAddr) : ∃ e, toldUnbound s h = { s with handsets := e } := by
  unfold toldUnbound
  split
  · exact ⟨_, rfl⟩
  · split
    · split <;> exact ⟨_, rfl⟩
    · exact ⟨_, rfl⟩

theorem foldl_toldUnbound_frame (hs : List HandsetAddr) (s : State) : ∃ e, hs.foldl toldUnbound s = { s with handsets := e } := by
  induction hs generalizing s with
  | nil => exact ⟨_, rfl⟩
  | cons h hs ih =>
    obtain ⟨e, he⟩ := toldUnbound_frame s h
    obtain ⟨e', he'⟩ := ih (toldUnbound s h)
    exact ⟨e', by rw [List.foldl_cons, he', he]⟩

/-- Applying a proposal sets the entries it gives, sets the unsaved mark, and may remove handset entries. -/
theorem applyProposal_frame (s : State) (p : Proposal) : ∃ hs, applyProposal s p =
    { s with handsets := hs, bind := { s.bind with entries := p.entries s.bind.entries, unsaved := true } } := by
  unfold applyProposal
  simp only
  split
  · split
    · exact ⟨_, rfl⟩
    · exact toldUnbound_frame { s with bind := { s.bind with entries := p.entries s.bind.entries, unsaved := true } } _
  · exact ⟨_, rfl⟩

/-- Judging a proposal writes the binding entries, the unsaved mark and the handset table. -/
theorem judgeProposal_frame (s : State) (p : Proposal) : ∃ hs e u, judgeProposal s p =
    { s with handsets := hs, bind := { s.bind with entries := e, unsaved := u } } := by
  unfold judgeProposal
  split
  · obtain ⟨hs, h⟩ := applyProposal_frame s p
    exact ⟨hs, _, _, h⟩
  · exact ⟨_, _, _, rfl⟩

/-- A notice request writes the gates. -/
theorem requestNotice_frame (s : State) (l : Lane) (n : Notice) : ∃ g, requestNotice s l n = { s with gates := g } := by
  unfold requestNotice
  split <;> exact ⟨_, rfl⟩

/-- So does the request of a run's next notice. -/
theorem requestNext_frame (s : State) (l : Lane) (n : Notice) : ∃ g, requestNext s l n = { s with gates := g } := by
  unfold requestNext
  split <;> exact ⟨_, rfl⟩

/-- Starting a notice run writes the gates and the runs. -/
theorem startRun_frame (s : State) (l : Lane) (c : Car) : ∃ g r, startRun s l c =
    { s with gates := g, bind := { s.bind with runs := r } } := by
  unfold startRun
  obtain ⟨g, h⟩ := requestNotice_frame s l (runNotice s c)
  exact ⟨g, _, by rw [h]; rfl⟩

/-- The local rule writes the gates, the handset table, the binding entries, unsaved mark and runs, and the queue. -/
theorem localBind_frame (s : State) (l : Lane) (p : Proposal) : ∃ g hs e u r q n, localBind s l p =
    { s with gates := g, handsets := hs, bind := { s.bind with entries := e, unsaved := u, runs := r },
             line := { s.line with queue := q, nextId := n } } := by
  unfold localBind
  split
  · obtain ⟨hs, h⟩ := applyProposal_frame s p
    obtain ⟨g, r, h'⟩ := startRun_frame (queueLiveBind (applyProposal s p) p.car) l p.car
    exact ⟨g, hs, p.entries s.bind.entries, true, r, _, _, by rw [h', h]; rfl⟩
  · exact ⟨_, _, _, _, _, _, _, rfl⟩

/-- A local bind judgement writes what the local rule writes. -/
theorem judgeLocal_frame (s : State) : ∃ g hs e u r q n, judgeLocal s =
    { s with gates := g, handsets := hs, bind := { s.bind with entries := e, unsaved := u, runs := r },
             line := { s.line with queue := q, nextId := n } } := by
  unfold judgeLocal
  split
  · split
    · split
      · split
        · exact localBind_frame s _ _
        · exact ⟨_, _, _, _, _, _, _, rfl⟩
      · exact ⟨_, _, _, _, _, _, _, rfl⟩
    · exact ⟨_, _, _, _, _, _, _, rfl⟩
  · exact ⟨_, _, _, _, _, _, _, rfl⟩

theorem endRunOnCode_frame (s : State) (l : Lane) (c : CarCode) : ∃ r, endRunOnCode s l c =
    { s with bind := { s.bind with runs := r } } := by
  unfold endRunOnCode
  split
  · split <;> exact ⟨_, rfl⟩
  · exact ⟨_, rfl⟩

/-- A report of a decoded code to the binding table writes what a judgement writes. -/
theorem codeReported_frame (s : State) (l : Lane) (c : CarCode) : ∃ g hs e u r q n, codeReported s l c =
    { s with gates := g, handsets := hs, bind := { s.bind with entries := e, unsaved := u, runs := r },
             line := { s.line with queue := q, nextId := n } } := by
  unfold codeReported
  split
  · obtain ⟨r, hr⟩ := endRunOnCode_frame s l c
    obtain ⟨g, hs, e, u, r', q, n, h⟩ := judgeLocal_frame (endRunOnCode s l c)
    exact ⟨g, hs, e, u, r', q, n, by rw [h, hr]⟩
  · exact ⟨_, _, _, _, _, _, _, rfl⟩

/-- A report of a stall end to the binding table writes what a judgement writes. -/
theorem stallEndReported_frame (s : State) (l : Lane) : ∃ g hs e u r q n, stallEndReported s l =
    { s with gates := g, handsets := hs, bind := { s.bind with entries := e, unsaved := u, runs := r },
             line := { s.line with queue := q, nextId := n } } := by
  unfold stallEndReported
  split
  · obtain ⟨g, hs, e, u, r, q, n, h⟩ := judgeLocal_frame (s.setRun l none)
    exact ⟨g, hs, e, u, r, q, n, by rw [h]; rfl⟩
  · exact ⟨_, _, _, _, _, _, _, rfl⟩

/-- HEAT sets the heated entries and writes the unsaved mark and the handset table. -/
theorem applyHeat_frame (s : State) : ∃ hs u, applyHeat s =
    { s with handsets := hs, bind := { s.bind with entries := s.bind.entries.map Binding.heated, unsaved := u } } := by
  unfold applyHeat heatBindings
  obtain ⟨e, h⟩ := foldl_toldUnbound_frame (heatFreed s.bind.entries)
    { s with bind := { s.bind with entries := s.bind.entries.map Binding.heated,
                                   unsaved := s.bind.unsaved || !(heatFreed s.bind.entries).isEmpty } }
  exact ⟨_, _, by simp only [h, heatRequests]; rfl⟩

/-- A JOIN writes the queue, the frame counter and the cursor. -/
theorem joinTaken_frame (s : State) (a : NodeAddr) : ∃ q k c, joinTaken s a =
    { s with line := { s.line with queue := q, nextId := k }, bind := { s.bind with cursor := c } } := by
  unfold joinTaken
  split
  · obtain ⟨q, k, c, h⟩ := feed_frame (s.setCursor (some 0))
    exact ⟨q, k, c, by rw [h]; rfl⟩
  · exact ⟨_, _, _, rfl⟩

/-- Consumption by a received PASS writes the handset table. -/
theorem passConsumes_frame (s : State) (p : PassNotice) : ∃ hs, passConsumes s p = { s with handsets := hs } := by
  unfold passConsumes
  split <;> exact ⟨_, rfl⟩

/-- The order field of a received PASS writes the binding entries. -/
theorem orderReceived_frame (s : State) (p : PassNotice) (o : Outcome) : ∃ e, orderReceived s p o =
    { s with bind := { s.bind with entries := e } } := by
  unfold orderReceived
  split <;> exact ⟨_, rfl⟩

/-! ## Occupancy -/

/-- A hold request writes the holds. -/
theorem holdRequest_frame (s : State) (l : Lane) (t : Time) : ∃ h, holdRequest s l t = { s with occ := { s.occ with holds := h } } := by
  unfold holdRequest
  split <;> exact ⟨_, rfl⟩

theorem makeOccupancyRoom_frame (s : State) : ∃ es h, makeOccupancyRoom s =
    { s with occ := { s.occ with list := es, holds := h } } := by
  unfold makeOccupancyRoom
  split
  · exact ⟨_, _, rfl⟩
  · simp only
    split
    · split
      · obtain ⟨h, hh⟩ := holdRequest_frame (s.setOccupancy (s.occ.list.eraseIdx (occupancyVictim s.occ.list))) _ _
        exact ⟨_, h, by rw [hh]; rfl⟩
      · exact ⟨_, _, rfl⟩
    · exact ⟨_, _, rfl⟩

/-- Entering an occupancy entry writes the list and the holds. -/
theorem enterOccupancy_frame (s : State) (e : OccupancyEntry) : ∃ es h, enterOccupancy s e =
    { s with occ := { s.occ with list := es, holds := h } } := by
  unfold enterOccupancy
  obtain ⟨es, h, hh⟩ := makeOccupancyRoom_frame s
  exact ⟨_, h, by simp only [hh]; rfl⟩

/-- Taking a passage record writes the occupancy block but for the neighbour records. -/
theorem takeRecord_frame (s : State) (r : PassageRecord) : ∃ es h lc, takeRecord s r =
    { s with occ := { s.occ with list := es, holds := h, lastClose := lc,
                                 approach := matchedApproach s.working r s.occ.approach } } := by
  unfold takeRecord
  obtain ⟨es, h, hh⟩ := enterOccupancy_frame (matchArrival s r) (recordEntry s.working r)
  exact ⟨es, h, _, by rw [hh]; rfl⟩

/-- Entering an approach record writes the approach list and the holds. -/
theorem enterApproach_frame (s : State) (r : ApproachRecord) : ∃ rs h, enterApproach s r =
    { s with occ := { s.occ with approach := rs, holds := h } } := by
  unfold enterApproach makeApproachRoom
  simp only
  split
  · exact ⟨_, _, rfl⟩
  · split
    · obtain ⟨h, hh⟩ := holdRequest_frame ((s.setApproach (withoutCode r.code s.occ.approach)).setApproach
        ((s.setApproach (withoutCode r.code s.occ.approach)).occ.approach.eraseIdx (earliest (fun a b : ApproachRecord =>
          Time.before a.window.stop b.window.stop) (s.setApproach (withoutCode r.code s.occ.approach)).occ.approach))) _ _
      exact ⟨_, h, by rw [hh]; rfl⟩
    · exact ⟨_, _, rfl⟩

/-! ## Blades and grants -/

/-- Arming writes the blades. -/
theorem armBlade_frame (s : State) (l : Lane) (a b : Time) : ∃ bs, armBlade s l a b = { s with blades := bs } := by
  unfold armBlade
  simp only
  split <;> exact ⟨_, rfl⟩

/-- A stand-down writes the blades. -/
theorem standDownBlade_frame (s : State) (l : Lane) : ∃ bs, standDownBlade s l = { s with blades := bs } := by
  unfold standDownBlade
  simp only
  split <;> exact ⟨_, rfl⟩

/-- The report of a complete send writes the blades and the slots. -/
theorem frameSent_frame (s : State) (l : Lane) (id : Nat) : ∃ bs sl, frameSent s l id =
    { s with blades := bs, grants := { s.grants with slots := sl } } := by
  unfold frameSent
  split
  · split
    · unfold commitGrant
      obtain ⟨bs, h⟩ := armBlade_frame (s.setSlot l _) l _ _
      exact ⟨bs, _, by rw [h]; rfl⟩
    · exact ⟨_, _, rfl⟩
  · exact ⟨_, _, rfl⟩

/-- Ending a grant removes its TARGET entry, frees its slot, and writes the binding entries and the queue. -/
theorem endGrant_frame (s : State) (l : Lane) (g : Grant) (o : Outcome) : ∃ e q n, endGrant s l g o =
    { s with occ := { s.occ with list := s.occ.list.filter (fun e => !linkedTo l e) },
             grants := { s.grants with slots := s.grants.slots.set l none },
             bind := { s.bind with entries := e }, line := { s.line with queue := q, nextId := n } } := by
  unfold endGrant
  have h : ∃ e, giveBack ((removeTarget s l).setSlot l none) g =
      { ((removeTarget s l).setSlot l none) with bind := { ((removeTarget s l).setSlot l none).bind with entries := e } } := by
    unfold giveBack
    split
    · exact ⟨_, rfl⟩
    · exact restoreOrder_frame _ _ _
  obtain ⟨e, he⟩ := h
  exact ⟨e, _, _, by simp only [he]; rfl⟩

/-- A withdrawal writes the occupancy list, the slots, the binding entries and cursor, and the queue. -/
theorem withdraw_frame (s : State) (l : Lane) (o : Outcome) : ∃ es sl e c q n, withdraw s l o =
    { s with occ := { s.occ with list := es }, grants := { s.grants with slots := sl },
             bind := { s.bind with entries := e, cursor := c }, line := { s.line with queue := q, nextId := n } } := by
  unfold withdraw
  split
  · split
    · rename_i g _ _
      have h : ∃ q k c, removeTaken s g =
          { s with line := { s.line with queue := q, nextId := k }, bind := { s.bind with cursor := c } } := by
        unfold removeTaken
        split
        · exact removeFrame_frame s _
        · exact ⟨_, _, _, rfl⟩
      obtain ⟨q, k, c, h⟩ := h
      obtain ⟨e, q', n, h'⟩ := endGrant_frame (removeTaken s g) l g o
      exact ⟨_, _, e, c, q', n, by rw [h', h]⟩
    · exact ⟨_, _, _, _, _, _, rfl⟩
  · exact ⟨_, _, _, _, _, _, rfl⟩

/-- An abort writes the blades too. -/
theorem abort_frame (s : State) (l : Lane) : ∃ bs es sl e q n, abort s l =
    { s with blades := bs, occ := { s.occ with list := es }, grants := { s.grants with slots := sl },
             bind := { s.bind with entries := e }, line := { s.line with queue := q, nextId := n } } := by
  unfold abort
  split
  · split
    · rename_i g _ _
      obtain ⟨bs, hb⟩ := standDownBlade_frame s l
      obtain ⟨e, q, n, h⟩ := endGrant_frame (standDownBlade s l) l g .aborted
      exact ⟨bs, _, _, e, q, n, by rw [h, hb]⟩
    · exact ⟨_, _, _, _, _, _, rfl⟩
  · exact ⟨_, _, _, _, _, _, rfl⟩

/-- A recheck writes what withdrawals and aborts write. -/
theorem recheckSlot_frame (r : Option ApproachRecord) (s : State) (l : Lane) : ∃ bs es sl e c q n, recheckSlot r s l =
    { s with blades := bs, occ := { s.occ with list := es }, grants := { s.grants with slots := sl },
             bind := { s.bind with entries := e, cursor := c }, line := { s.line with queue := q, nextId := n } } := by
  unfold recheckSlot
  split
  · exact ⟨_, _, _, _, _, _, _, rfl⟩
  · split
    · split
      · obtain ⟨es, sl, e, c, q, n, h⟩ := withdraw_frame s l .yielded
        exact ⟨_, es, sl, e, c, q, n, h⟩
      · exact ⟨_, _, _, _, _, _, _, rfl⟩
    · split
      · obtain ⟨bs, es, sl, e, q, n, h⟩ := abort_frame s l
        exact ⟨bs, es, sl, e, _, q, n, h⟩
      · exact ⟨_, _, _, _, _, _, _, rfl⟩
    · exact ⟨_, _, _, _, _, _, _, rfl⟩

theorem foldl_recheckSlot_frame (r : Option ApproachRecord) (ls : List Lane) (s : State) :
    ∃ bs es sl e c q n, ls.foldl (recheckSlot r) s =
    { s with blades := bs, occ := { s.occ with list := es }, grants := { s.grants with slots := sl },
             bind := { s.bind with entries := e, cursor := c }, line := { s.line with queue := q, nextId := n } } := by
  induction ls generalizing s with
  | nil => exact ⟨_, _, _, _, _, _, _, rfl⟩
  | cons l ls ih =>
    obtain ⟨bs, es, sl, e, c, q, n, h⟩ := recheckSlot_frame r s l
    obtain ⟨bs', es', sl', e', c', q', n', h'⟩ := ih (recheckSlot r s l)
    exact ⟨bs', es', sl', e', c', q', n', by rw [List.foldl_cons, h', h]⟩

/-- A recheck of every slot writes what withdrawals and aborts write. -/
theorem recheck_frame (s : State) (r : Option ApproachRecord) : ∃ bs es sl e c q n, recheck s r =
    { s with blades := bs, occ := { s.occ with list := es }, grants := { s.grants with slots := sl },
             bind := { s.bind with entries := e, cursor := c }, line := { s.line with queue := q, nextId := n } } :=
  foldl_recheckSlot_frame r _ s

/-- Entering a claim writes the claim table and the holds. -/
theorem enterClaim_frame (s : State) (c : Claim) : ∃ cs h, enterClaim s c =
    { s with grants := { s.grants with claims := cs }, occ := { s.occ with holds := h } } := by
  unfold enterClaim makeClaimRoom
  simp only
  split
  · exact ⟨_, _, rfl⟩
  · split
    · obtain ⟨h, hh⟩ := holdRequest_frame ((s.setClaims (claimsWithout c.code s.grants.claims)).setClaims
        ((s.setClaims (claimsWithout c.code s.grants.claims)).grants.claims.eraseIdx (earliest (fun a b : Claim =>
          Time.before a.window.stop b.window.stop) (s.setClaims (claimsWithout c.code s.grants.claims)).grants.claims))) _ _
      exact ⟨_, h, by rw [hh]; rfl⟩
    · exact ⟨_, _, rfl⟩

/-- A notice at the claim table writes the claims, the holds and what a recheck writes. -/
theorem claimNotice_frame (s : State) (a : NodeAddr) (p : PassNotice) (o : Outcome) (t : Time) :
    ∃ bs es h g e c q n, claimNotice s a p o t =
    { s with blades := bs, occ := { s.occ with list := es, holds := h }, grants := g,
             bind := { s.bind with entries := e, cursor := c }, line := { s.line with queue := q, nextId := n } } := by
  unfold claimNotice
  split
  all_goals first
    | exact ⟨_, _, _, _, _, _, _, _, rfl⟩
    | (split
       · obtain ⟨cs, h, hc⟩ := enterClaim_frame s (claimOf a p t)
         obtain ⟨bs, es, sl, e, c, q, n, hr⟩ := recheck_frame (enterClaim s (claimOf a p t)) none
         exact ⟨bs, es, h, _, e, c, q, n, by rw [hr, hc]⟩
       · exact ⟨_, _, _, _, _, _, _, _, rfl⟩)

/-- A notice at the approach list writes the approach list, the holds and what a recheck writes. -/
theorem approachNotice_frame (s : State) (p : PassNotice) (o : Outcome) (t : Time) :
    ∃ bs es rs h sl e c q n, approachNotice s p o t =
    { s with blades := bs, occ := { s.occ with list := es, approach := rs, holds := h },
             grants := { s.grants with slots := sl },
             bind := { s.bind with entries := e, cursor := c }, line := { s.line with queue := q, nextId := n } } := by
  unfold approachNotice
  simp only
  split
  · obtain ⟨rs, h, hc⟩ := enterApproach_frame s (approachRecord s.working p o t)
    obtain ⟨bs, es, sl, e, c, q, n, hr⟩ :=
      recheck_frame (enterApproach s (approachRecord s.working p o t)) (some (approachRecord s.working p o t))
    exact ⟨bs, es, rs, h, sl, e, c, q, n, by rw [hr, hc]⟩
  · exact ⟨_, _, _, _, _, _, _, _, _, rfl⟩

/-! ## Decisions -/

/-- The ladder writes only what ending a pending grant writes. -/
theorem ladder_frame (s : State) (c : Candidate) : ∃ bs es sl e k q n, (ladder s c).1 =
    { s with blades := bs, occ := { s.occ with list := es }, grants := { s.grants with slots := sl },
             bind := { s.bind with entries := e, cursor := k }, line := { s.line with queue := q, nextId := n } } := by
  unfold ladder check3
  simp only
  split
  · exact ⟨_, _, _, _, _, _, _, rfl⟩
  · split
    · exact ⟨_, _, _, _, _, _, _, rfl⟩
    · split
      · exact ⟨_, _, _, _, _, _, _, rfl⟩
      · rename_i s' w hc
        split at hc
        · cases hc; exact ⟨_, _, _, _, _, _, _, rfl⟩
        · cases hc
        · split at hc
          · cases hc
          · cases hc
            obtain ⟨bs, es, sl, e, q, n, h⟩ := abort_frame s c.record.lane
            exact ⟨bs, es, sl, e, _, q, n, h⟩
        · split at hc
          · cases hc
          · cases hc
            obtain ⟨es, sl, e, k, q, n, h⟩ := withdraw_frame s c.record.lane .yielded
            exact ⟨_, es, sl, e, k, q, n, h⟩

/-- The effects of an outcome: handset requests, the order, the TARGET entry, the slot and the queue. -/
theorem settle_frame (s : State) (c : Candidate) (d : Decided) : ∃ hs e es h sl q n, settle s c d =
    { s with handsets := hs, bind := { s.bind with entries := e }, occ := { s.occ with list := es, holds := h },
             grants := { s.grants with slots := sl }, line := { s.line with queue := q, nextId := n } } := by
  have h1 : ∃ hs, settleRequest s c d.outcome = { s with handsets := hs } := by
    unfold settleRequest; split <;> exact ⟨_, rfl⟩
  obtain ⟨hs, h1⟩ := h1
  have h2 : ∃ e, settleOrder (settleRequest s c d.outcome) c d.outcome =
      { s with handsets := hs, bind := { s.bind with entries := e } } := by
    rw [h1]; unfold settleOrder; split
    · split <;> exact ⟨_, rfl⟩
    · exact ⟨_, rfl⟩
  obtain ⟨e, h2⟩ := h2
  have h3 : ∃ es h, settleTarget (settleOrder (settleRequest s c d.outcome) c d.outcome) c d =
      { s with handsets := hs, bind := { s.bind with entries := e }, occ := { s.occ with list := es, holds := h } } := by
    rw [h2]; unfold settleTarget
    split
    all_goals first
      | exact ⟨_, _, rfl⟩
      | (obtain ⟨es, h, hh⟩ := enterOccupancy_frame { s with handsets := hs, bind := { s.bind with entries := e } } _
         exact ⟨es, h, by rw [hh]⟩)
  obtain ⟨es, h, h3⟩ := h3
  unfold settle
  rw [h3]
  unfold settleNotice
  split <;> exact ⟨hs, e, es, h, _, _, _, rfl⟩

/-- A decision writes the handset table, the binding entries and cursor, the occupancy list and holds, the slots, the blades
and the queue. -/
theorem decideRecord_frame (s : State) (r : PassageRecord) : ∃ hs bs e k es h sl q n, decideRecord s r =
    { s with handsets := hs, blades := bs, bind := { s.bind with entries := e, cursor := k },
             occ := { s.occ with list := es, holds := h }, grants := { s.grants with slots := sl },
             line := { s.line with queue := q, nextId := n } } := by
  obtain ⟨bs, es, sl, e, k, q, n, h⟩ := ladder_frame s (candidate s r)
  obtain ⟨hs, e', es', h', sl', q', n', hh⟩ := settle_frame (ladder s (candidate s r)).1 (candidate s r) (ladder s (candidate s r)).2
  exact ⟨hs, bs, e', k, es', h', sl', q', n', by unfold decideRecord; simp only; rw [hh, h]⟩

/-- Handing over a record: the occupancy block and what a decision writes. -/
theorem handOver_frame (s : State) (r : PassageRecord) : ∃ hs bs e k es h lc rs sl q n, handOver s r =
    { s with handsets := hs, blades := bs, bind := { s.bind with entries := e, cursor := k },
             occ := { s.occ with list := es, holds := h, lastClose := lc, approach := rs },
             grants := { s.grants with slots := sl }, line := { s.line with queue := q, nextId := n } } := by
  unfold handOver
  split
  · obtain ⟨es, h, lc, ht⟩ := takeRecord_frame s r
    obtain ⟨hs, bs, e, k, es', h', sl, q, n, hd⟩ := decideRecord_frame (takeRecord s r) r
    exact ⟨hs, bs, e, k, es', h', lc, _, sl, q, n, by rw [hd, ht]⟩
  · split
    · obtain ⟨es, h, lc, ht⟩ := takeRecord_frame s r
      exact ⟨_, _, _, _, es, h, lc, _, _, _, _, ht⟩
    · exact ⟨_, _, _, _, _, _, _, _, _, _, _, rfl⟩

/-- A change of a decoded code writes the occupancy list and what a report writes. -/
theorem reportChange_frame (s : State) (l : Lane) (old : Option CarCode) : ∃ g hs e u r q n es, reportChange s l old =
    { s with gates := g, handsets := hs, bind := { s.bind with entries := e, unsaved := u, runs := r },
             line := { s.line with queue := q, nextId := n }, occ := { s.occ with list := es } } := by
  unfold reportChange
  split
  · split
    · exact ⟨_, _, _, _, _, _, _, _, rfl⟩
    · unfold reportCode
      obtain ⟨g, hs, e, u, r, q, n, h⟩ := codeReported_frame (occupancyCode s l _) l _
      exact ⟨g, hs, e, u, r, q, n, _, by rw [h]; rfl⟩
  · exact ⟨_, _, _, _, _, _, _, _, rfl⟩

/-! ## Handset frames -/

/-- An accepted handset frame writes the handset table, the binding block but for the cursor, the gates and the queue. -/
theorem acceptFrame_frame (s : State) (f : HandsetFrame) : ∃ g hs e u r q n, acceptFrame s f =
    { s with gates := g, handsets := hs, bind := { s.bind with entries := e, unsaved := u, runs := r },
             line := { s.line with queue := q, nextId := n } } := by
  have judged : ∀ (x : State) (hs : List HandsetEntry) (e : CodeTable Binding),
      x = { s with handsets := hs, bind := { s.bind with entries := e } } →
      ∃ g hs e u r q n, judgeLocal x =
        { s with gates := g, handsets := hs, bind := { s.bind with entries := e, unsaved := u, runs := r },
                 line := { s.line with queue := q, nextId := n } } := by
    intro x hs e hx
    obtain ⟨g, hs', e', u, r, q, n, h⟩ := judgeLocal_frame x
    exact ⟨g, hs', e', u, r, q, n, by rw [h, hx]⟩
  have press : ∀ (x : State) (a : HandsetAddr), ∃ e, pressTaken x a = { x with bind := { x.bind with entries := e } } := by
    intro x a; unfold pressTaken; split <;> exact ⟨_, rfl⟩
  have prog : ∀ (x : State) (a : HandsetAddr) (d : Dir) (v : Nat), ∃ e, programTaken x a d v =
      { x with bind := { x.bind with entries := e } } := by
    intro x a d v; unfold programTaken; split <;> exact ⟨_, rfl⟩
  unfold acceptFrame
  split
  · rename_i e0 _
    unfold knownFrame
    have counts : ∃ hs e, takeCounts (s.updateHandset f.address (fun x => { x with lastHeard := s.now })) f e0 =
        { s with handsets := hs, bind := { s.bind with entries := e } } := by
      unfold takeCounts
      split
      · exact ⟨_, _, rfl⟩
      · have hp : ∃ hs e, takePress (s.updateHandset f.address (fun x => { x with lastHeard := s.now })) f e0 =
            { s with handsets := hs, bind := { s.bind with entries := e } } := by
          unfold takePress
          split
          · exact ⟨_, _, rfl⟩
          · obtain ⟨e, h⟩ := press _ f.address
            exact ⟨_, e, by rw [h]; rfl⟩
        obtain ⟨hs, e, hp⟩ := hp
        rw [hp]
        unfold takeProgram
        split
        · exact ⟨_, _, rfl⟩
        · obtain ⟨e', h⟩ := prog _ f.address f.programDir f.programValue
          exact ⟨_, e', by rw [h]; rfl⟩
    obtain ⟨hs, e, hc⟩ := counts
    rw [hc]
    unfold takeGesture
    simp only
    split
    · exact ⟨_, _, _, _, _, _, _, rfl⟩
    · exact judged _ _ e rfl
  · unfold firstSighting makeHandsetRoom
    split
    · rename_i s' hroom
      have hs' : ∃ g hs e u r q n, s' =
          { s with gates := g, handsets := hs, bind := { s.bind with entries := e, unsaved := u, runs := r },
                   line := { s.line with queue := q, nextId := n } } := by
        split at hroom
        · cases hroom; exact ⟨_, _, _, _, _, _, _, rfl⟩
        · obtain ⟨v, _, hv⟩ := Option.map_eq_some_iff.mp hroom
          subst hv
          unfold removeHandset
          split
          · exact judged _ _ s.bind.entries rfl
          · exact ⟨_, _, _, _, _, _, _, rfl⟩
      obtain ⟨g, hs, e, u, r, q, n, hs'⟩ := hs'
      simp only
      split
      · obtain ⟨g2, hs2, e2, u2, r2, q2, n2, h2⟩ := judgeLocal_frame { s' with handsets := s'.handsets ++ [f.firstEntry s.now] }
        exact ⟨g2, hs2, e2, u2, r2, q2, n2, by rw [h2, hs']⟩
      · exact ⟨g, _, e, u, r, q, n, by rw [hs']⟩
    · exact ⟨_, _, _, _, _, _, _, rfl⟩

/-- Removing a handset entry writes what a judgement writes. -/
theorem removeHandset_frame (s : State) (x : HandsetEntry) : ∃ g hs e u r q n, removeHandset s x =
    { s with gates := g, handsets := hs, bind := { s.bind with entries := e, unsaved := u, runs := r },
             line := { s.line with queue := q, nextId := n } } := by
  unfold removeHandset
  split
  · obtain ⟨g, hs, e, u, r, q, n, h⟩ := judgeLocal_frame (s.dropHandset x.address)
    exact ⟨g, hs, e, u, r, q, n, by rw [h]; rfl⟩
  · exact ⟨_, _, _, _, _, _, _, rfl⟩

/-! ## The line -/

/-- A complete send: the queue, the line and send states, the BEACON timer, the cursor, the slots and the blades. -/
theorem completeSend_frame (s : State) (f : TxFrame) : ∃ bs sl c ln, completeSend s f =
    { s with blades := bs, grants := { s.grants with slots := sl }, bind := { s.bind with cursor := c }, line := ln } := by
  unfold completeSend
  obtain ⟨q, k, c, h⟩ := removeFrame_frame (frameEnded s) f.id
  have hr : ∃ bs sl, reportSent (removeFrame (frameEnded s) f.id) f =
      { (removeFrame (frameEnded s) f.id) with
        blades := bs, grants := { (removeFrame (frameEnded s) f.id).grants with slots := sl } } := by
    unfold reportSent
    split
    · exact frameSent_frame _ _ _
    all_goals exact ⟨_, _, rfl⟩
  obtain ⟨bs, sl, hr⟩ := hr
  rw [hr, h]
  unfold restartBeacon
  split <;> exact ⟨bs, sl, c, _, rfl⟩

/-- The removal of a frame at its deadline writes what a withdrawal writes. -/
theorem removeLate_frame (s : State) (f : TxFrame) : ∃ es sl e c q n, removeLate s f =
    { s with occ := { s.occ with list := es }, grants := { s.grants with slots := sl },
             bind := { s.bind with entries := e, cursor := c }, line := { s.line with queue := q, nextId := n } } := by
  have hrem : ∃ es sl e c q n, removeFrame s f.id =
      { s with occ := { s.occ with list := es }, grants := { s.grants with slots := sl },
               bind := { s.bind with entries := e, cursor := c }, line := { s.line with queue := q, nextId := n } } := by
    obtain ⟨q, k, c, h⟩ := removeFrame_frame s f.id
    exact ⟨_, _, _, c, q, k, h⟩
  unfold removeLate
  split
  · split
    · unfold takenRemoved
      split
      · split
        · exact withdraw_frame s _ _
        · exact hrem
      · exact hrem
    · exact hrem
  all_goals exact hrem

/-- The BEACON's hand-in writes the queue, the frame counter, the timer and the cursor. -/
theorem beaconDue_frame (s : State) : ∃ q n b c, beaconDue s =
    { s with line := { s.line with queue := q, nextId := n, beacon := b }, bind := { s.bind with cursor := c } } := by
  unfold beaconDue removeOldBeacon
  split
  · obtain ⟨q, k, c, h⟩ := removeFrame_frame s _
    rw [h]; unfold restartBeacon; split <;> exact ⟨_, _, _, c, rfl⟩
  · unfold restartBeacon; split <;> exact ⟨_, _, _, _, rfl⟩

/-- What the takers of a PASS write after step 1. -/
theorem takePass_frame (f : GoodFrame) (t : Time) (s : State) : ∃ hs bs es rs h g e c q n, takePass f t s =
    { s with handsets := hs, blades := bs, occ := { s.occ with list := es, approach := rs, holds := h }, grants := g,
             bind := { s.bind with entries := e, cursor := c }, line := { s.line with queue := q, nextId := n } } := by
  unfold takePass
  simp only
  split
  · rename_i o _
    have h1 : ∃ bs es rs h g e c q n, passToApproach f (decodePass (payloadWord 88 f.payload)) o t s =
        { s with blades := bs, occ := { s.occ with list := es, approach := rs, holds := h }, grants := g,
                 bind := { s.bind with entries := e, cursor := c }, line := { s.line with queue := q, nextId := n } } := by
      unfold passToApproach
      split
      · obtain ⟨bs, es, rs, h, sl, e, c, q, n, hh⟩ := approachNotice_frame s (decodePass (payloadWord 88 f.payload)) o t
        exact ⟨bs, es, rs, h, _, e, c, q, n, hh⟩
      · exact ⟨_, _, _, _, _, _, _, _, _, rfl⟩
    obtain ⟨bs, es, rs, h, g, e, c, q, n, h1⟩ := h1
    have h2 : ∃ bs es h g e c q n, passToClaims f (decodePass (payloadWord 88 f.payload)) o t
          (passToApproach f (decodePass (payloadWord 88 f.payload)) o t s) =
        { s with blades := bs, occ := { s.occ with list := es, approach := rs, holds := h }, grants := g,
                 bind := { s.bind with entries := e, cursor := c }, line := { s.line with queue := q, nextId := n } } := by
      rw [h1]
      unfold passToClaims
      split
      · obtain ⟨bs, es, h', g', e', c', q', n', hh⟩ := claimNotice_frame
          { s with blades := bs, occ := { s.occ with list := es, approach := rs, holds := h }, grants := g,
                   bind := { s.bind with entries := e, cursor := c }, line := { s.line with queue := q, nextId := n } }
          f.originator (decodePass (payloadWord 88 f.payload)) o t
        exact ⟨bs, es, h', g', e', c', q', n', hh⟩
      · exact ⟨_, _, _, _, _, _, _, _, rfl⟩
    obtain ⟨bs, es, h, g, e, c, q, n, h2⟩ := h2
    rw [h2]
    unfold passToTables
    split
    · obtain ⟨e', he⟩ := orderReceived_frame
        { s with blades := bs, occ := { s.occ with list := es, approach := rs, holds := h }, grants := g,
                 bind := { s.bind with entries := e, cursor := c }, line := { s.line with queue := q, nextId := n } }
        (decodePass (payloadWord 88 f.payload)) o
      rw [he]
      obtain ⟨hs, hh⟩ := passConsumes_frame
        { s with blades := bs, occ := { s.occ with list := es, approach := rs, holds := h }, grants := g,
                 bind := { s.bind with entries := e', cursor := c }, line := { s.line with queue := q, nextId := n } }
        (decodePass (payloadWord 88 f.payload))
      exact ⟨hs, bs, es, rs, h, g, e', c, q, n, by rw [hh]⟩
    · exact ⟨_, bs, es, rs, h, g, e, c, q, n, rfl⟩
  · exact ⟨_, _, _, _, _, _, _, _, _, _, rfl⟩

/-! ## A gate that is not blanking (R33) -/

theorem Gate.unblanked_of_none {g : Gate} (h : g.blanking = none) : g.unblanked = g := by simp [Gate.unblanked, h]
theorem Gate.reblanked_of_none {g : Gate} (h : g.blanking = none) : g.reblanked = g := by simp [Gate.reblanked, h]

end Sys2Proof.Machine
end

