-- ==== Sys2Proof/Laws/Lists.lean ====
section
/-! SUPPORT. The ordered entry, the earliest element and the transmit queue: what they hold, how long they are, how they stand. -/

namespace Sys2Proof.Machine

variable {α : Type}

/-- An entry in order adds the one element. -/
theorem enterInOrder_perm (f : α → Bool) (x : α) (xs : List α) : (enterInOrder f x xs).Perm (x :: xs) := by
  induction xs with
  | nil => exact List.Perm.refl _
  | cons y ys ih =>
    unfold enterInOrder
    split
    · exact List.Perm.refl _
    · exact (List.Perm.cons y ih).trans (List.Perm.swap x y ys)

@[simp] theorem enterInOrder_length (f : α → Bool) (x : α) (xs : List α) :
    (enterInOrder f x xs).length = xs.length + 1 := (enterInOrder_perm f x xs).length_eq

@[simp] theorem mem_enterInOrder (f : α → Bool) (x y : α) (xs : List α) : y ∈ enterInOrder f x xs ↔ y = x ∨ y ∈ xs := by
  rw [(enterInOrder_perm f x xs).mem_iff, List.mem_cons]

theorem earliestFrom_lt (f : α → α → Bool) (xs : List α) : ∀ (best : α) (place next : Nat), place < next →
    earliestFrom f best place next xs < next + xs.length := by
  induction xs with
  | nil => intro best place next h; simpa [earliestFrom] using h
  | cons y ys ih =>
    intro best place next h
    unfold earliestFrom
    split
    · have := ih y next (next + 1) (by omega); simp only [List.length_cons]; omega
    · have := ih best place (next + 1) (by omega); simp only [List.length_cons]; omega

/-- The place of the earliest element lies in the list. -/
theorem earliest_lt (f : α → α → Bool) (xs : List α) (h : xs ≠ []) : earliest f xs < xs.length := by
  cases xs with
  | nil => exact absurd rfl h
  | cons y ys => have := earliestFrom_lt f ys y 0 1 (by omega); simp only [earliest, List.length_cons]; omega

/-- A frame entered in its place keeps a queue in order of level (R154). -/
theorem enterFrame_pairwise (f : TxFrame) (q : List TxFrame) (h : q.Pairwise (fun a b => a.level.toNat ≤ b.level.toNat)) :
    (enterFrame f q).Pairwise (fun a b => a.level.toNat ≤ b.level.toNat) := by
  unfold enterFrame
  induction q with
  | nil => simp [enterInOrder]
  | cons y ys ih =>
    rw [List.pairwise_cons] at h
    unfold enterInOrder
    split
    · next hc =>
      simp only [decide_eq_true_eq] at hc
      rw [List.pairwise_cons]
      refine ⟨fun z hz => ?_, List.pairwise_cons.mpr h⟩
      rcases List.mem_cons.mp hz with rfl | hz
      · omega
      · have := h.1 z hz; omega
    · next hc =>
      simp only [decide_eq_true_eq] at hc
      rw [List.pairwise_cons]
      refine ⟨fun z hz => ?_, ih h.2⟩
      rcases (mem_enterInOrder _ _ _ _).mp hz with rfl | hz
      · omega
      · exact h.1 z hz

/-- Room in the queue: a part of it in the same order, with fewer than eight frames where there were eight at most. -/
theorem makeRoom_spec (q r : List TxFrame) (h : makeRoom q = some r) :
    r.Sublist q ∧ (q.length ≤ Config.queueCap → r.length < Config.queueCap) := by
  unfold makeRoom at h
  split at h
  · next hl => cases h; exact ⟨List.Sublist.refl _, fun _ => hl⟩
  · next hl =>
    obtain ⟨i, hi, rfl⟩ := Option.map_eq_some_iff.mp h
    refine ⟨List.eraseIdx_sublist _ _, fun hq => ?_⟩
    have hlt : i < q.length := by
      unfold dropPlace at hi
      split at hi <;> exact (List.findIdx?_eq_some_iff_getElem.mp hi).1
    rw [List.length_eraseIdx_of_lt hlt]
    omega

/-- R154, R156: after a hand-in the queue is as it was, or a part of it with the one frame in its place; the frame is one
that the node state takes, and its deadline lies ahead. -/
theorem queueAfter_spec (n : NodeState) (now : Time) (f : TxFrame) (q : List TxFrame) :
    queueAfter n now f q = q ∨
      (acceptsFrame n f.body = true ∧ arrived now f.deadline = false ∧
        ∃ r, makeRoom q = some r ∧ queueAfter n now f q = enterFrame f r) := by
  unfold queueAfter
  split
  · exact .inl rfl
  · next h =>
    simp only [Bool.or_eq_true, Bool.not_eq_true', not_or, Bool.not_eq_false, Bool.not_eq_true] at h
    split
    · next r hr => exact .inr ⟨h.1, h.2, r, hr, rfl⟩
    · exact .inl rfl

/-- A hand-in to a queue of at most eight frames leaves at most eight (R154). -/
theorem queueAfter_length (n : NodeState) (now : Time) (f : TxFrame) (q : List TxFrame) (h : q.length ≤ Config.queueCap) :
    (queueAfter n now f q).length ≤ Config.queueCap := by
  rcases queueAfter_spec n now f q with e | ⟨-, -, r, hr, e⟩
  · rw [e]; exact h
  · have := (makeRoom_spec q r hr).2 h
    rw [e, enterFrame, enterInOrder_length]
    omega

/-- A hand-in keeps a queue in order of level (R154). -/
theorem queueAfter_pairwise (n : NodeState) (now : Time) (f : TxFrame) (q : List TxFrame)
    (h : q.Pairwise (fun a b => a.level.toNat ≤ b.level.toNat)) :
    (queueAfter n now f q).Pairwise (fun a b => a.level.toNat ≤ b.level.toNat) := by
  rcases queueAfter_spec n now f q with e | ⟨-, -, r, hr, e⟩
  · rw [e]; exact h
  · rw [e]; exact enterFrame_pairwise f r (h.sublist (makeRoom_spec q r hr).1)

end Sys2Proof.Machine
end

