-- ==== Sys2Proof/Laws/Passes.lean ====
section
/-! SUPPORT. What a PASS does at the binding table and the handset port (R44, R75), and what a grant that ends without a throw
gives back and tells (R74, R127). -/

namespace Sys2Proof.Machine

open Sys2Proof.Safety

/-- The entry of a code is the car that bears it. -/
theorem Car.ofCode_eq_some {c : CarCode} {car : Car} : Car.ofCode c = some car ↔ car.code = c := by
  constructor
  · intro h; revert h; revert c car; decide
  · rintro rfl; simp

/-- The handset of a car code, in words of the entry. -/
theorem boundHandset_eq_some (s : State) (c : CarCode) (h : HandsetAddr) :
    boundHandset s c = some h ↔ ∃ car, Car.ofCode c = some car ∧ (s.bind.entries.get car).handset = some h := by
  unfold boundHandset; cases Car.ofCode c <;> simp

/-- R44: what a PASS does at the handset port. -/
theorem passConsumes_eq (s : State) (p : PassNotice) : passConsumes s p = { s with handsets := handsetsAfterPass s p } := by
  unfold passConsumes handsetsAfterPass
  cases hp : p.pressed with
  | none => simp
  | some n =>
    cases hb : boundHandset s p.code with
    | none =>
      have : ∀ h, ¬ ∃ car, Car.ofCode p.code = some car ∧ (s.bind.entries.get car).handset = some h := by
        intro h; rw [← boundHandset_eq_some, hb]; simp
      simp only [this, false_and, if_false]
      show s = { s with handsets := s.handsets.map _ }
      rw [List.map_congr_left (g := id)]
      · simp
      · intro e _; cases e.request <;> rfl
    | some h =>
      simp only [← boundHandset_eq_some, hb]
      unfold consumePress State.updateHandset
      congr 1
      apply List.map_congr_left
      intro e _
      by_cases hh : h = e.address
      · subst hh; cases hr : e.request with
        | none => simp [hr]
        | some q => by_cases hq : q.count = n <;> simp [hq, hr]
      · cases hr : e.request with
        | none => simp [Ne.symm hh]
        | some q => by_cases hq : q.count = n <;> simp [hq, hh, Ne.symm hh]

/-- R75: what a PASS does at an entry of the binding table. -/
theorem orderReceived_get (s : State) (p : PassNotice) (o : Outcome) (c : Car) :
    (orderReceived s p o).bind.entries.get c =
      { s.bind.entries.get c with standing := standingAfterPass p o c (s.bind.entries.get c).standing } := by
  unfold orderReceived standingAfterPass
  cases ho : p.order with
  | none => simp
  | some q =>
    cases hc : Car.ofCode p.code with
    | none =>
      have : c.code ≠ p.code := by intro e; rw [← e] at hc; simp at hc
      simp [this]; cases h : (s.bind.entries.get c).standing <;> simp [← h]
    | some car =>
      have hcar := Car.ofCode_eq_some.1 hc
      simp only [updateStanding, State.setBinding, CodeTable.get_set]
      by_cases h : c = car
      · subst h; simp [hcar]; cases hs : (s.bind.entries.get c).standing <;> simp [Standing.receive]
        cases o <;> simp [Outcome.ends]
      · have : c.code ≠ p.code := by rw [← hcar]; intro e; apply h; have := congrArg Car.ofCode e; simpa using this
        simp [h, this]; cases h : (s.bind.entries.get c).standing <;> simp [← h]

/-- R153 steps 4 and 5: all that a PASS does at the binding table and the handset port in SYNC and RUN. -/
theorem passToTables_spec (s : State) (p : PassNotice) (o : Outcome) (h : s.node.live = true) :
    (passToTables p o s).handsets = handsetsAfterPass s p ∧
    (∀ c, (passToTables p o s).bind.entries.get c =
      { s.bind.entries.get c with standing := standingAfterPass p o c (s.bind.entries.get c).standing }) ∧
    passToTables p o s = { s with
      handsets := (passToTables p o s).handsets
      bind := { s.bind with entries := (passToTables p o s).bind.entries } } := by
  unfold passToTables
  rw [if_pos h, passConsumes_eq]
  obtain ⟨e, he⟩ := orderReceived_frame s p o
  refine ⟨?_, fun c => orderReceived_get s p o c, by rw [he]⟩
  simp only
  unfold handsetsAfterPass
  have h2 : (orderReceived s p o).handsets = s.handsets := by rw [he]
  have h3 : ∀ c, ((orderReceived s p o).bind.entries.get c).handset = (s.bind.entries.get c).handset := by
    intro c; rw [orderReceived_get]
  rw [h2]; simp only [h3]

/-- R74: what the end of a grant without a throw gives back. -/
theorem giveBack_get (s : State) (g : Grant) (c : Car) :
    (giveBack s g).bind.entries.get c =
      { s.bind.entries.get c with standing := givenBack g c (s.bind.entries.get c).standing } := by
  unfold giveBack givenBack
  cases hu : g.used with
  | press n => simp
  | order d =>
    simp only [restoreOrder]
    cases hc : Car.ofCode g.code with
    | none =>
      have : c.code ≠ g.code := by intro e; rw [← e] at hc; simp at hc
      simp [this]; cases h : (s.bind.entries.get c).standing <;> simp [← h]
    | some car =>
      have hcar := Car.ofCode_eq_some.1 hc
      simp only [updateStanding, State.setBinding, CodeTable.get_set]
      by_cases h : c = car
      · subst h; simp [hcar]; cases hs : (s.bind.entries.get c).standing <;> simp [Standing.restore]
        split <;> simp_all
      · have : c.code ≠ g.code := by rw [← hcar]; intro e; apply h; have := congrArg Car.ofCode e; simpa using this
        simp [h, this]; cases h : (s.bind.entries.get c).standing <;> simp [← h]

/-- R127: the fields of the notice of a grant that ends. -/
theorem endNotice_endsWith (s u : State) (l : Lane) (g : Grant) (o : Outcome) (hw : u.working = s.working)
    (hb : u.bind.entries = s.bind.entries) : endsWith s (giveBack u g) l g o (endNotice (giveBack u g) l g o) := by
  have hwk : (giveBack u g).working = u.working := by
    unfold giveBack; split
    · rfl
    · obtain ⟨e, he⟩ := restoreOrder_frame u g.code ‹_›; rw [he]
  refine ⟨rfl, rfl, rfl, rfl, rfl, rfl, by simp [endNotice, hwk, hw], by simp [endNotice, hwk, hw], ?_, ?_⟩
  · intro k
    have hbh : boundHandset (giveBack u g) g.code = boundHandset s g.code := by
      unfold boundHandset; split
      · rw [giveBack_get]; simp [hb]
      · rfl
    simp only [endNotice, hbh]
    cases hu : g.used with
    | order d => simp
    | press n =>
      unfold boundHandset
      cases hc : Car.ofCode g.code with
      | none => simp
      | some car => simp [and_comm]
  · intro x
    simp only [endNotice, orderField]
    cases hc : Car.ofCode g.code with
    | none => simp
    | some car =>
      simp
      cases ((giveBack u g).bind.entries.get car).standing <;> simp [Standing.field]
      cases x; simp

end Sys2Proof.Machine
end

