-- ==== Sys2Proof/Laws/Queue.lean ====
section
/-! SUPPORT. What a hand-in to the transmit queue can do, a full one's dropped frame among it (R154, R156). -/

namespace Sys2Proof.Machine

open Sys2Proof.Safety

/-- The greatest of a number and the level numbers of a queue bounds them all and is one of them. -/
theorem greatest_fold (q : List TxFrame) (n : Nat) :
    let m := q.foldl (fun n f => max n f.level.toNat) n
    n ≤ m ∧ (∀ x ∈ q, x.level.toNat ≤ m) ∧ (m = n ∨ ∃ x ∈ q, m = x.level.toNat) := by
  intro m
  subst m
  induction q generalizing n with
  | nil => simp
  | cons y q ih =>
    obtain ⟨a, b, c⟩ := ih (max n y.level.toNat)
    refine ⟨by simp; omega, ?_, ?_⟩
    · simp; exact ⟨by omega, b⟩
    · simp only [List.foldl_cons, List.mem_cons, exists_eq_or_imp]
      rcases c with c | c
      · rcases Nat.le_total n y.level.toNat with h | h
        · right; left; omega
        · left; omega
      · right; right; exact c

/-- No frame's level number is above the greatest. -/
theorem level_le_greatestLevel {q : List TxFrame} {x : TxFrame} (h : x ∈ q) : x.level.toNat ≤ greatestLevel q :=
  (greatest_fold q 0).2.1 x h

/-- The greatest level number is 0 exactly where every frame is at level 0. -/
theorem greatestLevel_eq_zero {q : List TxFrame} : greatestLevel q = 0 ↔ ∀ x ∈ q, x.level = 0 := by
  constructor
  · intro h x hx; have := level_le_greatestLevel hx; apply BitVec.eq_of_toNat_eq; simp; omega
  · intro h; rcases (greatest_fold q 0).2.2 with c | ⟨x, hx, c⟩
    · exact c
    · unfold greatestLevel; rw [c, h x hx]; rfl

/-- The first place that meets a test, in words of the element there and of those before it. -/
theorem findIdx?_eq_some_iff_take {α : Type} {p : α → Bool} {q : List α} {i : Nat} :
    q.findIdx? p = some i ↔ (∃ v, q[i]? = some v ∧ p v = true) ∧ ∀ x ∈ q.take i, p x = false := by
  rw [List.findIdx?_eq_some_iff_getElem]
  constructor
  · rintro ⟨h, hp, hn⟩
    refine ⟨⟨q[i], by simp [h], hp⟩, ?_⟩
    intro x hx
    obtain ⟨j, hj, rfl⟩ := List.mem_iff_getElem.1 hx
    simp at hj ⊢
    simpa using hn j hj.1
  · rintro ⟨⟨v, hv, hp⟩, hn⟩
    obtain ⟨h, rfl⟩ := List.getElem?_eq_some_iff.1 hv
    refine ⟨h, hp, ?_⟩
    intro j hj
    have := hn q[j] (List.mem_iff_getElem.2 ⟨j, by simp; omega, by simp⟩)
    simpa using this

/-- The place that R156 drops from, in words of the frames of the queue. -/
theorem dropPlace_iff (q : List TxFrame) (i : Nat) : dropPlace q = some i ↔ ∃ v, dropped q i v := by
  unfold dropPlace dropped
  by_cases h : greatestLevel q = 0
  · rw [if_pos h, findIdx?_eq_some_iff_take]
    have h' := greatestLevel_eq_zero.1 h
    constructor
    · rintro ⟨⟨v, hv, hp⟩, hn⟩
      refine ⟨v, hv, ?_, ?_⟩
      · rintro ⟨x, hx, hx'⟩; exact absurd (h' x hx) hx'
      · intro _; simp at hp; refine ⟨hp.1, hp.2, ?_⟩
        intro x hx; have := hn x hx; simp at this; simpa using this
    · rintro ⟨v, hv, -, h2⟩
      obtain ⟨a, b, c⟩ := h2 h'
      refine ⟨⟨v, hv, by simp [a, b]⟩, ?_⟩
      intro x hx; have := c x hx; simpa using this
  · rw [if_neg h, findIdx?_eq_some_iff_take]
    have h' : ∃ x ∈ q, x.level ≠ 0 := by
      by_contra hc; exact h (greatestLevel_eq_zero.2 (by simpa using hc))
    constructor
    · rintro ⟨⟨v, hv, hp⟩, hn⟩
      simp at hp
      refine ⟨v, hv, ?_, ?_⟩
      · intro _; refine ⟨fun x hx => by rw [hp]; exact level_le_greatestLevel hx, ?_⟩
        intro x hx e; have := hn x hx; simp at this; rw [e] at this; exact this hp
      · intro hz; obtain ⟨x, hx, hx'⟩ := h'; exact absurd (hz x hx) hx'
    · rintro ⟨v, hv, h1, -⟩
      obtain ⟨a, c⟩ := h1 h'
      have hv' : v ∈ q := List.mem_of_getElem? hv
      have hvl : v.level.toNat = greatestLevel q := by
        refine Nat.le_antisymm (level_le_greatestLevel hv') ?_
        rcases (greatest_fold q 0).2.2 with e | ⟨x, hx, e⟩
        · exact absurd e h
        · unfold greatestLevel; rw [e]; exact a x hx
      refine ⟨⟨v, hv, by simp [hvl]⟩, ?_⟩
      intro x hx; simp; intro e; exact c x hx (BitVec.eq_of_toNat_eq (e.trans hvl.symm))

/-- R154, R156: a frame that the node state takes, its deadline ahead, is queued, in the room of a dropped one where the queue
is full. -/
theorem queueAfter_queuedIn (n : NodeState) (now : Time) (f : TxFrame) (q : List TxFrame)
    (h : acceptsFrame n f.body = true) (hd : arrived now f.deadline = false) :
    queuedIn f q (queueAfter n now f q) := by
  unfold queueAfter queuedIn makeRoom Config.queueCap
  simp only [h, hd, Bool.not_true, Bool.or_self, Bool.false_eq_true, if_false]
  refine ⟨fun hl => by rw [if_pos hl], fun hl => ?_⟩
  rw [if_neg (by omega)]
  refine ⟨?_, ?_⟩
  · intro i v hv
    rw [(dropPlace_iff q i).2 ⟨v, hv⟩]; rfl
  · intro hn
    cases hd : dropPlace q with
    | none => rfl
    | some i => obtain ⟨v, hv⟩ := (dropPlace_iff q i).1 hd; exact absurd hv (hn i v)

end Sys2Proof.Machine
end

