-- ==== Sys2Proof/Laws/Receive.lean ====
section
/-! SUPPORT. What a bit of the section line or of the handset line does, and what the end of a good frame does: nothing, FAULT at an
address clash, or step 1 and then the frame's taker. -/

namespace Sys2Proof.Machine

open Sys2Proof.Safety

/-- A bit read writes the line state and the send status alone. -/
theorem LineController.read_frame (c : LineController) (b : Bool) :
    c.read b = { c with state := (c.read b).state, send := (c.read b).send } := by
  unfold LineController.read
  split
  · rfl
  · split <;> rfl
  · rfl

/-- So do bits read one after the other. -/
theorem LineController.readAll_frame {bits : List Bool} {c d : LineController} (h : LineController.readAll bits c = some d) :
    d = { c with state := d.state, send := d.send } := by
  induction bits generalizing c with
  | nil =>
    unfold LineController.readAll at h
    split at h <;> cases h
    rfl
  | cons b rest ih =>
    unfold LineController.readAll at h
    split at h
    · cases h
    · rw [ih h, LineController.read_frame c b]

/-- LINE_READY writes the line state and the send status alone. -/
theorem lineReady_frame (bits : List Bool) (s : State) : ∃ x y, lineReady bits s = { s with line := { s.line with state := x, send := y } } := by
  unfold lineReady
  split
  · split
    · next c h => exact ⟨c.state, c.send, by rw [State.setLine, ← LineController.readAll_frame h]⟩
    · exact ⟨_, _, rfl⟩
  · exact ⟨_, _, rfl⟩

/-- R36: what closes at one bit time is the open run, and only once its 2 ticks are over. -/
theorem RunGatherer.read_closed (g : RunGatherer) (level : Bool) :
    (g.read level).closed = none ∨ ∃ r, g.run = some r ∧ Config.quietBits ≤ r.quiet + 1 ∧
      (g.read level).closed = some { chars := r.chars, bits := r.bits + 1 } := by
  unfold RunGatherer.read
  cases h : g.run with
  | none => exact .inl rfl
  | some r =>
    by_cases hq : r.quiet + 1 < Config.quietBits
    · simp [hq]
    · exact .inr ⟨r, rfl, by omega, by simp [hq]⟩

/-- The end of a frame writes the line state and the send status. -/
@[simp] theorem frameEnded_eq (s : State) :
    frameEnded s = { s with line := { s.line with state := .waitIdle 0, send := .idle } } := rfl

/-- Step 1 writes the two neighbour records. -/
theorem heard_frame (s : State) (f : GoodFrame) : ∃ u d, heard s f = { s with occ := { s.occ with up := u, down := d } } := by
  unfold heard
  split <;> exact ⟨_, _, rfl⟩

/-- Step 1 where the record is of another address, or the node does not watch, changes nothing. -/
theorem heard_other (s : State) (f : GoodFrame)
    (h : s.node.watching = false ∨ s.occ.up.address ≠ f.originator ∧ s.occ.down.address ≠ f.originator) : heard s f = s := by
  unfold heard
  split
  · next hw =>
    rcases h with h | ⟨h1, h2⟩
    · rw [h] at hw; exact absurd hw (by decide)
    · simp [refreshNeighbours, NeighbourRecord.hear, h1, h2]
  · rfl

/-- R91, R153: step 1 for a frame that is no BEACON, where the node watches. -/
theorem heard_eq_heardOnly (s : State) (f : GoodFrame) (hk : f.kind ≠ .beacon) (hw : s.node.watching = true) :
    heard (frameEnded s) f = heardOnly s f := by
  have h1 : (frameEnded s).node.watching = true := by rw [frameEnded_eq]; exact hw
  unfold heard; rw [if_pos h1, frameEnded_eq]
  simp [refreshNeighbours, NeighbourRecord.hear, GoodFrame.geometry, hk, heardOnly, heardFrom]

/-- R151 to R153: a delivered frame serves its taker after step 1. -/
theorem receiveFrame_delivered {s : State} {bits : List Bool} {kind : FrameKind} {f : GoodFrame} (h : delivered s bits kind f)
    (take : GoodFrame → Time → State → State) (phase : BitVec 3) :
    receiveFrame kind take bits phase s = take f (stampOf s phase kind) (heard (frameEnded s) f) := by
  obtain ⟨h1, h2, h3, h4⟩ := h
  simp [receiveFrame, h1, h2, h3, h4]

/-- What the end of a good frame can do, each way. -/
theorem receiveFrame_cases (kind : FrameKind) (take : GoodFrame → Time → State → State) (bits : List Bool) (phase : BitVec 3)
    (s : State) :
    receiveFrame kind take bits phase s = s ∨
      (s.node.live = true ∧ receiveFrame kind take bits phase s = enterFault (frameEnded s)) ∨
      ∃ f, delivered s bits kind f ∧
        receiveFrame kind take bits phase s = take f (stampOf s phase kind) (heard (frameEnded s) f) := by
  unfold receiveFrame
  split
  · next f hf =>
    split
    · next h =>
      simp only [Bool.and_eq_true, decide_eq_true_eq] at h
      split
      · next hc =>
        simp only [isClash, Bool.and_eq_true] at hc
        exact .inr (.inl ⟨hc.1, rfl⟩)
      · next hc => exact .inr (.inr ⟨f, ⟨h.1, hf, h.2, by simpa using hc⟩, rfl⟩)
    · exact .inl rfl
  · exact .inl rfl

end Sys2Proof.Machine
end

