-- ==== Sys2Proof/Laws/Rechecks.lean ====
section
/-! SUPPORT. A recheck slot by slot (R121): what it leaves at the other lanes, and the lanes before and after one. -/

namespace Sys2Proof.Machine

/-- A recheck at one lane keeps slot and blade of every other, and takes occupancy entries away only. -/
theorem recheckSlot_other (r : Option ApproachRecord) (s : State) (l m : Lane) (h : m ≠ l) :
    (recheckSlot r s l).grants.slots.get m = s.grants.slots.get m ∧ (recheckSlot r s l).blades.get m = s.blades.get m ∧
    (∃ p : OccupancyEntry → Bool, (recheckSlot r s l).occ.list = s.occ.list.filter p) := by
  have hw : ∀ o, (withdraw s l o).grants.slots.get m = s.grants.slots.get m ∧ (withdraw s l o).blades.get m = s.blades.get m ∧
    (∃ p : OccupancyEntry → Bool, (withdraw s l o).occ.list = s.occ.list.filter p) := by
    intro o
    unfold withdraw; split
    · split
      · rename_i g _ _
        have hr : ∃ q k c, removeTaken s g =
          { s with line := { s.line with queue := q, nextId := k }, bind := { s.bind with cursor := c } } := by
          unfold removeTaken
          split
          · exact removeFrame_frame s _
          · exact ⟨_, _, _, rfl⟩
        obtain ⟨q, k, c, hr⟩ := hr
        obtain ⟨e, q', n, h'⟩ := endGrant_frame (removeTaken s g) l g o
        rw [h', hr]; simp [h]; exact ⟨_, rfl⟩
      · exact ⟨rfl, rfl, fun _ => true, by simp⟩
    · exact ⟨rfl, rfl, fun _ => true, by simp⟩
  have ha : (abort s l).grants.slots.get m = s.grants.slots.get m ∧ (abort s l).blades.get m = s.blades.get m ∧
    (∃ p : OccupancyEntry → Bool, (abort s l).occ.list = s.occ.list.filter p) := by
    unfold abort; split
    · split
      · rename_i g _ _
        obtain ⟨e, q', n, h'⟩ := endGrant_frame (standDownBlade s l) l g .aborted
        rw [h']; unfold standDownBlade; simp only; split <;> simp [h, State.setBlade] <;> exact ⟨_, rfl⟩
      · exact ⟨rfl, rfl, fun _ => true, by simp⟩
    · exact ⟨rfl, rfl, fun _ => true, by simp⟩
  have hz : s.grants.slots.get m = s.grants.slots.get m ∧ s.blades.get m = s.blades.get m ∧
    (∃ p : OccupancyEntry → Bool, s.occ.list = s.occ.list.filter p) := ⟨rfl, rfl, fun _ => true, by simp⟩
  unfold recheckSlot; split
  · exact hz
  · split <;> (try split) <;> first | exact hz | exact ha | exact hw _

/-- The same over a list of other lanes. -/
theorem foldl_recheckSlot_other (r : Option ApproachRecord) (l : Lane) (ls : List Lane) (h : l ∉ ls) (s : State) :
    (ls.foldl (recheckSlot r) s).grants.slots.get l = s.grants.slots.get l ∧
    (ls.foldl (recheckSlot r) s).blades.get l = s.blades.get l ∧
    (∃ p : OccupancyEntry → Bool, (ls.foldl (recheckSlot r) s).occ.list = s.occ.list.filter p) := by
  induction ls generalizing s with
  | nil => exact ⟨rfl, rfl, fun _ => true, by simp⟩
  | cons m ls ih =>
    simp only [List.mem_cons, not_or] at h
    obtain ⟨a, b, p, c⟩ := ih h.2 (recheckSlot r s m)
    obtain ⟨a', b', p', c'⟩ := recheckSlot_other r s m l h.1
    exact ⟨a.trans a', b.trans b', fun x => p x && p' x, by rw [List.foldl_cons, c, c', List.filter_filter]⟩

/-- A recheck of free slots changes nothing. -/
theorem foldl_recheckSlot_free (r : Option ApproachRecord) (ls : List Lane) (s : State) (h : ∀ m ∈ ls, s.grants.slots.get m = none) :
    ls.foldl (recheckSlot r) s = s := by
  induction ls with
  | nil => rfl
  | cons m ls ih =>
    have : recheckSlot r s m = s := by unfold recheckSlot; rw [h m (List.mem_cons_self ..)]
    rw [List.foldl_cons, this]; exact ih (fun x hx => h x (List.mem_cons_of_mem _ hx))

/-- The lanes 1 to `n` around one of them, in order. -/
theorem lanes_around (l : Lane) (n : Nat) (h : l.num ≤ n) : Lane.all.filter (fun m => decide (m.num ≤ n)) =
    Lane.all.filter (fun m => decide (m.num < l.num)) ++ l :: Lane.all.filter (fun m => decide (l.num < m.num ∧ m.num ≤ n)) := by
  have : n = 1 ∨ n = 2 ∨ n = 3 ∨ 4 ≤ n := by cases l <;> simp [Lane.num] at h <;> omega
  rcases this with rfl | rfl | rfl | h4
  · cases l <;> first | rfl | exact absurd h (by decide)
  · cases l <;> first | rfl | exact absurd h (by decide)
  · cases l <;> first | rfl | exact absurd h (by decide)
  · have a : ∀ m : Lane, m.num ≤ n := fun m => by cases m <;> simp only [Lane.num] <;> omega
    simp only [a, decide_true, and_true]
    cases l <;> rfl

end Sys2Proof.Machine
end

