-- ==== Sys2Proof/Laws/State.lean ====
section
/-! SUPPORT. What each update of one part of the state leaves in each field: one lemma per update and field. -/

namespace Sys2Proof.Machine

variable (s : State)

@[simp] theorem State.setGate_now (l : Lane) (g : Gate) : (s.setGate l g).now = s.now := rfl
@[simp] theorem State.setGate_node (l : Lane) (g : Gate) : (s.setGate l g).node = s.node := rfl
@[simp] theorem State.setGate_pins (l : Lane) (g : Gate) : (s.setGate l g).pins = s.pins := rfl
@[simp] theorem State.setGate_sup (l : Lane) (g : Gate) : (s.setGate l g).sup = s.sup := rfl
@[simp] theorem State.setGate_nv (l : Lane) (g : Gate) : (s.setGate l g).nv = s.nv := rfl
@[simp] theorem State.setGate_gates (l : Lane) (g : Gate) : (s.setGate l g).gates = s.gates.set l g := rfl
@[simp] theorem State.setGate_handsets (l : Lane) (g : Gate) : (s.setGate l g).handsets = s.handsets := rfl
@[simp] theorem State.setGate_bind (l : Lane) (g : Gate) : (s.setGate l g).bind = s.bind := rfl
@[simp] theorem State.setGate_occ (l : Lane) (g : Gate) : (s.setGate l g).occ = s.occ := rfl
@[simp] theorem State.setGate_grants (l : Lane) (g : Gate) : (s.setGate l g).grants = s.grants := rfl
@[simp] theorem State.setGate_blades (l : Lane) (g : Gate) : (s.setGate l g).blades = s.blades := rfl
@[simp] theorem State.setGate_line (l : Lane) (g : Gate) : (s.setGate l g).line = s.line := rfl
@[simp] theorem State.setGate_draws (l : Lane) (g : Gate) : (s.setGate l g).draws = s.draws := rfl
@[simp] theorem State.setGate_pending (l : Lane) (g : Gate) : (s.setGate l g).pending = s.pending := rfl

@[simp] theorem State.setBlade_now (l : Lane) (b : Blade) : (s.setBlade l b).now = s.now := rfl
@[simp] theorem State.setBlade_node (l : Lane) (b : Blade) : (s.setBlade l b).node = s.node := rfl
@[simp] theorem State.setBlade_pins (l : Lane) (b : Blade) : (s.setBlade l b).pins = s.pins := rfl
@[simp] theorem State.setBlade_sup (l : Lane) (b : Blade) : (s.setBlade l b).sup = s.sup := rfl
@[simp] theorem State.setBlade_nv (l : Lane) (b : Blade) : (s.setBlade l b).nv = s.nv := rfl
@[simp] theorem State.setBlade_gates (l : Lane) (b : Blade) : (s.setBlade l b).gates = s.gates := rfl
@[simp] theorem State.setBlade_handsets (l : Lane) (b : Blade) : (s.setBlade l b).handsets = s.handsets := rfl
@[simp] theorem State.setBlade_bind (l : Lane) (b : Blade) : (s.setBlade l b).bind = s.bind := rfl
@[simp] theorem State.setBlade_occ (l : Lane) (b : Blade) : (s.setBlade l b).occ = s.occ := rfl
@[simp] theorem State.setBlade_grants (l : Lane) (b : Blade) : (s.setBlade l b).grants = s.grants := rfl
@[simp] theorem State.setBlade_blades (l : Lane) (b : Blade) : (s.setBlade l b).blades = s.blades.set l b := rfl
@[simp] theorem State.setBlade_line (l : Lane) (b : Blade) : (s.setBlade l b).line = s.line := rfl
@[simp] theorem State.setBlade_draws (l : Lane) (b : Blade) : (s.setBlade l b).draws = s.draws := rfl
@[simp] theorem State.setBlade_pending (l : Lane) (b : Blade) : (s.setBlade l b).pending = s.pending := rfl

@[simp] theorem State.setSlot_now (l : Lane) (g : Option Grant) : (s.setSlot l g).now = s.now := rfl
@[simp] theorem State.setSlot_node (l : Lane) (g : Option Grant) : (s.setSlot l g).node = s.node := rfl
@[simp] theorem State.setSlot_pins (l : Lane) (g : Option Grant) : (s.setSlot l g).pins = s.pins := rfl
@[simp] theorem State.setSlot_sup (l : Lane) (g : Option Grant) : (s.setSlot l g).sup = s.sup := rfl
@[simp] theorem State.setSlot_nv (l : Lane) (g : Option Grant) : (s.setSlot l g).nv = s.nv := rfl
@[simp] theorem State.setSlot_gates (l : Lane) (g : Option Grant) : (s.setSlot l g).gates = s.gates := rfl
@[simp] theorem State.setSlot_handsets (l : Lane) (g : Option Grant) : (s.setSlot l g).handsets = s.handsets := rfl
@[simp] theorem State.setSlot_bind (l : Lane) (g : Option Grant) : (s.setSlot l g).bind = s.bind := rfl
@[simp] theorem State.setSlot_occ (l : Lane) (g : Option Grant) : (s.setSlot l g).occ = s.occ := rfl
@[simp] theorem State.setSlot_grants (l : Lane) (g : Option Grant) : (s.setSlot l g).grants = { s.grants with slots := s.grants.slots.set l g } := rfl
@[simp] theorem State.setSlot_blades (l : Lane) (g : Option Grant) : (s.setSlot l g).blades = s.blades := rfl
@[simp] theorem State.setSlot_line (l : Lane) (g : Option Grant) : (s.setSlot l g).line = s.line := rfl
@[simp] theorem State.setSlot_draws (l : Lane) (g : Option Grant) : (s.setSlot l g).draws = s.draws := rfl
@[simp] theorem State.setSlot_pending (l : Lane) (g : Option Grant) : (s.setSlot l g).pending = s.pending := rfl

@[simp] theorem State.setClaims_now (cs : List Claim) : (s.setClaims cs).now = s.now := rfl
@[simp] theorem State.setClaims_node (cs : List Claim) : (s.setClaims cs).node = s.node := rfl
@[simp] theorem State.setClaims_pins (cs : List Claim) : (s.setClaims cs).pins = s.pins := rfl
@[simp] theorem State.setClaims_sup (cs : List Claim) : (s.setClaims cs).sup = s.sup := rfl
@[simp] theorem State.setClaims_nv (cs : List Claim) : (s.setClaims cs).nv = s.nv := rfl
@[simp] theorem State.setClaims_gates (cs : List Claim) : (s.setClaims cs).gates = s.gates := rfl
@[simp] theorem State.setClaims_handsets (cs : List Claim) : (s.setClaims cs).handsets = s.handsets := rfl
@[simp] theorem State.setClaims_bind (cs : List Claim) : (s.setClaims cs).bind = s.bind := rfl
@[simp] theorem State.setClaims_occ (cs : List Claim) : (s.setClaims cs).occ = s.occ := rfl
@[simp] theorem State.setClaims_grants (cs : List Claim) : (s.setClaims cs).grants = { s.grants with claims := cs } := rfl
@[simp] theorem State.setClaims_blades (cs : List Claim) : (s.setClaims cs).blades = s.blades := rfl
@[simp] theorem State.setClaims_line (cs : List Claim) : (s.setClaims cs).line = s.line := rfl
@[simp] theorem State.setClaims_draws (cs : List Claim) : (s.setClaims cs).draws = s.draws := rfl
@[simp] theorem State.setClaims_pending (cs : List Claim) : (s.setClaims cs).pending = s.pending := rfl

@[simp] theorem State.setBinding_now (c : Car) (b : Binding) : (s.setBinding c b).now = s.now := rfl
@[simp] theorem State.setBinding_node (c : Car) (b : Binding) : (s.setBinding c b).node = s.node := rfl
@[simp] theorem State.setBinding_pins (c : Car) (b : Binding) : (s.setBinding c b).pins = s.pins := rfl
@[simp] theorem State.setBinding_sup (c : Car) (b : Binding) : (s.setBinding c b).sup = s.sup := rfl
@[simp] theorem State.setBinding_nv (c : Car) (b : Binding) : (s.setBinding c b).nv = s.nv := rfl
@[simp] theorem State.setBinding_gates (c : Car) (b : Binding) : (s.setBinding c b).gates = s.gates := rfl
@[simp] theorem State.setBinding_handsets (c : Car) (b : Binding) : (s.setBinding c b).handsets = s.handsets := rfl
@[simp] theorem State.setBinding_bind (c : Car) (b : Binding) : (s.setBinding c b).bind = { s.bind with entries := s.bind.entries.set c b } := rfl
@[simp] theorem State.setBinding_occ (c : Car) (b : Binding) : (s.setBinding c b).occ = s.occ := rfl
@[simp] theorem State.setBinding_grants (c : Car) (b : Binding) : (s.setBinding c b).grants = s.grants := rfl
@[simp] theorem State.setBinding_blades (c : Car) (b : Binding) : (s.setBinding c b).blades = s.blades := rfl
@[simp] theorem State.setBinding_line (c : Car) (b : Binding) : (s.setBinding c b).line = s.line := rfl
@[simp] theorem State.setBinding_draws (c : Car) (b : Binding) : (s.setBinding c b).draws = s.draws := rfl
@[simp] theorem State.setBinding_pending (c : Car) (b : Binding) : (s.setBinding c b).pending = s.pending := rfl

@[simp] theorem State.setRun_now (l : Lane) (r : Option NoticeRun) : (s.setRun l r).now = s.now := rfl
@[simp] theorem State.setRun_node (l : Lane) (r : Option NoticeRun) : (s.setRun l r).node = s.node := rfl
@[simp] theorem State.setRun_pins (l : Lane) (r : Option NoticeRun) : (s.setRun l r).pins = s.pins := rfl
@[simp] theorem State.setRun_sup (l : Lane) (r : Option NoticeRun) : (s.setRun l r).sup = s.sup := rfl
@[simp] theorem State.setRun_nv (l : Lane) (r : Option NoticeRun) : (s.setRun l r).nv = s.nv := rfl
@[simp] theorem State.setRun_gates (l : Lane) (r : Option NoticeRun) : (s.setRun l r).gates = s.gates := rfl
@[simp] theorem State.setRun_handsets (l : Lane) (r : Option NoticeRun) : (s.setRun l r).handsets = s.handsets := rfl
@[simp] theorem State.setRun_bind (l : Lane) (r : Option NoticeRun) : (s.setRun l r).bind = { s.bind with runs := s.bind.runs.set l r } := rfl
@[simp] theorem State.setRun_occ (l : Lane) (r : Option NoticeRun) : (s.setRun l r).occ = s.occ := rfl
@[simp] theorem State.setRun_grants (l : Lane) (r : Option NoticeRun) : (s.setRun l r).grants = s.grants := rfl
@[simp] theorem State.setRun_blades (l : Lane) (r : Option NoticeRun) : (s.setRun l r).blades = s.blades := rfl
@[simp] theorem State.setRun_line (l : Lane) (r : Option NoticeRun) : (s.setRun l r).line = s.line := rfl
@[simp] theorem State.setRun_draws (l : Lane) (r : Option NoticeRun) : (s.setRun l r).draws = s.draws := rfl
@[simp] theorem State.setRun_pending (l : Lane) (r : Option NoticeRun) : (s.setRun l r).pending = s.pending := rfl

@[simp] theorem State.setCursor_now (c : Option Car) : (s.setCursor c).now = s.now := rfl
@[simp] theorem State.setCursor_node (c : Option Car) : (s.setCursor c).node = s.node := rfl
@[simp] theorem State.setCursor_pins (c : Option Car) : (s.setCursor c).pins = s.pins := rfl
@[simp] theorem State.setCursor_sup (c : Option Car) : (s.setCursor c).sup = s.sup := rfl
@[simp] theorem State.setCursor_nv (c : Option Car) : (s.setCursor c).nv = s.nv := rfl
@[simp] theorem State.setCursor_gates (c : Option Car) : (s.setCursor c).gates = s.gates := rfl
@[simp] theorem State.setCursor_handsets (c : Option Car) : (s.setCursor c).handsets = s.handsets := rfl
@[simp] theorem State.setCursor_bind (c : Option Car) : (s.setCursor c).bind = { s.bind with cursor := c } := rfl
@[simp] theorem State.setCursor_occ (c : Option Car) : (s.setCursor c).occ = s.occ := rfl
@[simp] theorem State.setCursor_grants (c : Option Car) : (s.setCursor c).grants = s.grants := rfl
@[simp] theorem State.setCursor_blades (c : Option Car) : (s.setCursor c).blades = s.blades := rfl
@[simp] theorem State.setCursor_line (c : Option Car) : (s.setCursor c).line = s.line := rfl
@[simp] theorem State.setCursor_draws (c : Option Car) : (s.setCursor c).draws = s.draws := rfl
@[simp] theorem State.setCursor_pending (c : Option Car) : (s.setCursor c).pending = s.pending := rfl

@[simp] theorem State.setOccupancy_now (es : List OccupancyEntry) : (s.setOccupancy es).now = s.now := rfl
@[simp] theorem State.setOccupancy_node (es : List OccupancyEntry) : (s.setOccupancy es).node = s.node := rfl
@[simp] theorem State.setOccupancy_pins (es : List OccupancyEntry) : (s.setOccupancy es).pins = s.pins := rfl
@[simp] theorem State.setOccupancy_sup (es : List OccupancyEntry) : (s.setOccupancy es).sup = s.sup := rfl
@[simp] theorem State.setOccupancy_nv (es : List OccupancyEntry) : (s.setOccupancy es).nv = s.nv := rfl
@[simp] theorem State.setOccupancy_gates (es : List OccupancyEntry) : (s.setOccupancy es).gates = s.gates := rfl
@[simp] theorem State.setOccupancy_handsets (es : List OccupancyEntry) : (s.setOccupancy es).handsets = s.handsets := rfl
@[simp] theorem State.setOccupancy_bind (es : List OccupancyEntry) : (s.setOccupancy es).bind = s.bind := rfl
@[simp] theorem State.setOccupancy_occ (es : List OccupancyEntry) : (s.setOccupancy es).occ = { s.occ with list := es } := rfl
@[simp] theorem State.setOccupancy_grants (es : List OccupancyEntry) : (s.setOccupancy es).grants = s.grants := rfl
@[simp] theorem State.setOccupancy_blades (es : List OccupancyEntry) : (s.setOccupancy es).blades = s.blades := rfl
@[simp] theorem State.setOccupancy_line (es : List OccupancyEntry) : (s.setOccupancy es).line = s.line := rfl
@[simp] theorem State.setOccupancy_draws (es : List OccupancyEntry) : (s.setOccupancy es).draws = s.draws := rfl
@[simp] theorem State.setOccupancy_pending (es : List OccupancyEntry) : (s.setOccupancy es).pending = s.pending := rfl

@[simp] theorem State.setApproach_now (rs : List ApproachRecord) : (s.setApproach rs).now = s.now := rfl
@[simp] theorem State.setApproach_node (rs : List ApproachRecord) : (s.setApproach rs).node = s.node := rfl
@[simp] theorem State.setApproach_pins (rs : List ApproachRecord) : (s.setApproach rs).pins = s.pins := rfl
@[simp] theorem State.setApproach_sup (rs : List ApproachRecord) : (s.setApproach rs).sup = s.sup := rfl
@[simp] theorem State.setApproach_nv (rs : List ApproachRecord) : (s.setApproach rs).nv = s.nv := rfl
@[simp] theorem State.setApproach_gates (rs : List ApproachRecord) : (s.setApproach rs).gates = s.gates := rfl
@[simp] theorem State.setApproach_handsets (rs : List ApproachRecord) : (s.setApproach rs).handsets = s.handsets := rfl
@[simp] theorem State.setApproach_bind (rs : List ApproachRecord) : (s.setApproach rs).bind = s.bind := rfl
@[simp] theorem State.setApproach_occ (rs : List ApproachRecord) : (s.setApproach rs).occ = { s.occ with approach := rs } := rfl
@[simp] theorem State.setApproach_grants (rs : List ApproachRecord) : (s.setApproach rs).grants = s.grants := rfl
@[simp] theorem State.setApproach_blades (rs : List ApproachRecord) : (s.setApproach rs).blades = s.blades := rfl
@[simp] theorem State.setApproach_line (rs : List ApproachRecord) : (s.setApproach rs).line = s.line := rfl
@[simp] theorem State.setApproach_draws (rs : List ApproachRecord) : (s.setApproach rs).draws = s.draws := rfl
@[simp] theorem State.setApproach_pending (rs : List ApproachRecord) : (s.setApproach rs).pending = s.pending := rfl

@[simp] theorem State.setHold_now (l : Lane) (t : Option Time) : (s.setHold l t).now = s.now := rfl
@[simp] theorem State.setHold_node (l : Lane) (t : Option Time) : (s.setHold l t).node = s.node := rfl
@[simp] theorem State.setHold_pins (l : Lane) (t : Option Time) : (s.setHold l t).pins = s.pins := rfl
@[simp] theorem State.setHold_sup (l : Lane) (t : Option Time) : (s.setHold l t).sup = s.sup := rfl
@[simp] theorem State.setHold_nv (l : Lane) (t : Option Time) : (s.setHold l t).nv = s.nv := rfl
@[simp] theorem State.setHold_gates (l : Lane) (t : Option Time) : (s.setHold l t).gates = s.gates := rfl
@[simp] theorem State.setHold_handsets (l : Lane) (t : Option Time) : (s.setHold l t).handsets = s.handsets := rfl
@[simp] theorem State.setHold_bind (l : Lane) (t : Option Time) : (s.setHold l t).bind = s.bind := rfl
@[simp] theorem State.setHold_occ (l : Lane) (t : Option Time) : (s.setHold l t).occ = { s.occ with holds := s.occ.holds.set l t } := rfl
@[simp] theorem State.setHold_grants (l : Lane) (t : Option Time) : (s.setHold l t).grants = s.grants := rfl
@[simp] theorem State.setHold_blades (l : Lane) (t : Option Time) : (s.setHold l t).blades = s.blades := rfl
@[simp] theorem State.setHold_line (l : Lane) (t : Option Time) : (s.setHold l t).line = s.line := rfl
@[simp] theorem State.setHold_draws (l : Lane) (t : Option Time) : (s.setHold l t).draws = s.draws := rfl
@[simp] theorem State.setHold_pending (l : Lane) (t : Option Time) : (s.setHold l t).pending = s.pending := rfl

@[simp] theorem State.setLastClose_now (l : Lane) (t : Option Time) : (s.setLastClose l t).now = s.now := rfl
@[simp] theorem State.setLastClose_node (l : Lane) (t : Option Time) : (s.setLastClose l t).node = s.node := rfl
@[simp] theorem State.setLastClose_pins (l : Lane) (t : Option Time) : (s.setLastClose l t).pins = s.pins := rfl
@[simp] theorem State.setLastClose_sup (l : Lane) (t : Option Time) : (s.setLastClose l t).sup = s.sup := rfl
@[simp] theorem State.setLastClose_nv (l : Lane) (t : Option Time) : (s.setLastClose l t).nv = s.nv := rfl
@[simp] theorem State.setLastClose_gates (l : Lane) (t : Option Time) : (s.setLastClose l t).gates = s.gates := rfl
@[simp] theorem State.setLastClose_handsets (l : Lane) (t : Option Time) : (s.setLastClose l t).handsets = s.handsets := rfl
@[simp] theorem State.setLastClose_bind (l : Lane) (t : Option Time) : (s.setLastClose l t).bind = s.bind := rfl
@[simp] theorem State.setLastClose_occ (l : Lane) (t : Option Time) : (s.setLastClose l t).occ = { s.occ with lastClose := s.occ.lastClose.set l t } := rfl
@[simp] theorem State.setLastClose_grants (l : Lane) (t : Option Time) : (s.setLastClose l t).grants = s.grants := rfl
@[simp] theorem State.setLastClose_blades (l : Lane) (t : Option Time) : (s.setLastClose l t).blades = s.blades := rfl
@[simp] theorem State.setLastClose_line (l : Lane) (t : Option Time) : (s.setLastClose l t).line = s.line := rfl
@[simp] theorem State.setLastClose_draws (l : Lane) (t : Option Time) : (s.setLastClose l t).draws = s.draws := rfl
@[simp] theorem State.setLastClose_pending (l : Lane) (t : Option Time) : (s.setLastClose l t).pending = s.pending := rfl

@[simp] theorem State.setQueue_now (q : List TxFrame) : (s.setQueue q).now = s.now := rfl
@[simp] theorem State.setQueue_node (q : List TxFrame) : (s.setQueue q).node = s.node := rfl
@[simp] theorem State.setQueue_pins (q : List TxFrame) : (s.setQueue q).pins = s.pins := rfl
@[simp] theorem State.setQueue_sup (q : List TxFrame) : (s.setQueue q).sup = s.sup := rfl
@[simp] theorem State.setQueue_nv (q : List TxFrame) : (s.setQueue q).nv = s.nv := rfl
@[simp] theorem State.setQueue_gates (q : List TxFrame) : (s.setQueue q).gates = s.gates := rfl
@[simp] theorem State.setQueue_handsets (q : List TxFrame) : (s.setQueue q).handsets = s.handsets := rfl
@[simp] theorem State.setQueue_bind (q : List TxFrame) : (s.setQueue q).bind = s.bind := rfl
@[simp] theorem State.setQueue_occ (q : List TxFrame) : (s.setQueue q).occ = s.occ := rfl
@[simp] theorem State.setQueue_grants (q : List TxFrame) : (s.setQueue q).grants = s.grants := rfl
@[simp] theorem State.setQueue_blades (q : List TxFrame) : (s.setQueue q).blades = s.blades := rfl
@[simp] theorem State.setQueue_line (q : List TxFrame) : (s.setQueue q).line = { s.line with queue := q } := rfl
@[simp] theorem State.setQueue_draws (q : List TxFrame) : (s.setQueue q).draws = s.draws := rfl
@[simp] theorem State.setQueue_pending (q : List TxFrame) : (s.setQueue q).pending = s.pending := rfl

@[simp] theorem State.setLineState_now (x : LineState) : (s.setLineState x).now = s.now := rfl
@[simp] theorem State.setLineState_node (x : LineState) : (s.setLineState x).node = s.node := rfl
@[simp] theorem State.setLineState_pins (x : LineState) : (s.setLineState x).pins = s.pins := rfl
@[simp] theorem State.setLineState_sup (x : LineState) : (s.setLineState x).sup = s.sup := rfl
@[simp] theorem State.setLineState_nv (x : LineState) : (s.setLineState x).nv = s.nv := rfl
@[simp] theorem State.setLineState_gates (x : LineState) : (s.setLineState x).gates = s.gates := rfl
@[simp] theorem State.setLineState_handsets (x : LineState) : (s.setLineState x).handsets = s.handsets := rfl
@[simp] theorem State.setLineState_bind (x : LineState) : (s.setLineState x).bind = s.bind := rfl
@[simp] theorem State.setLineState_occ (x : LineState) : (s.setLineState x).occ = s.occ := rfl
@[simp] theorem State.setLineState_grants (x : LineState) : (s.setLineState x).grants = s.grants := rfl
@[simp] theorem State.setLineState_blades (x : LineState) : (s.setLineState x).blades = s.blades := rfl
@[simp] theorem State.setLineState_line (x : LineState) : (s.setLineState x).line = { s.line with state := x } := rfl
@[simp] theorem State.setLineState_draws (x : LineState) : (s.setLineState x).draws = s.draws := rfl
@[simp] theorem State.setLineState_pending (x : LineState) : (s.setLineState x).pending = s.pending := rfl

@[simp] theorem State.setSend_now (x : SendStatus) : (s.setSend x).now = s.now := rfl
@[simp] theorem State.setSend_node (x : SendStatus) : (s.setSend x).node = s.node := rfl
@[simp] theorem State.setSend_pins (x : SendStatus) : (s.setSend x).pins = s.pins := rfl
@[simp] theorem State.setSend_sup (x : SendStatus) : (s.setSend x).sup = s.sup := rfl
@[simp] theorem State.setSend_nv (x : SendStatus) : (s.setSend x).nv = s.nv := rfl
@[simp] theorem State.setSend_gates (x : SendStatus) : (s.setSend x).gates = s.gates := rfl
@[simp] theorem State.setSend_handsets (x : SendStatus) : (s.setSend x).handsets = s.handsets := rfl
@[simp] theorem State.setSend_bind (x : SendStatus) : (s.setSend x).bind = s.bind := rfl
@[simp] theorem State.setSend_occ (x : SendStatus) : (s.setSend x).occ = s.occ := rfl
@[simp] theorem State.setSend_grants (x : SendStatus) : (s.setSend x).grants = s.grants := rfl
@[simp] theorem State.setSend_blades (x : SendStatus) : (s.setSend x).blades = s.blades := rfl
@[simp] theorem State.setSend_line (x : SendStatus) : (s.setSend x).line = { s.line with send := x } := rfl
@[simp] theorem State.setSend_draws (x : SendStatus) : (s.setSend x).draws = s.draws := rfl
@[simp] theorem State.setSend_pending (x : SendStatus) : (s.setSend x).pending = s.pending := rfl

@[simp] theorem State.setLine_now (c : LineController) : (s.setLine c).now = s.now := rfl
@[simp] theorem State.setLine_node (c : LineController) : (s.setLine c).node = s.node := rfl
@[simp] theorem State.setLine_pins (c : LineController) : (s.setLine c).pins = s.pins := rfl
@[simp] theorem State.setLine_sup (c : LineController) : (s.setLine c).sup = s.sup := rfl
@[simp] theorem State.setLine_nv (c : LineController) : (s.setLine c).nv = s.nv := rfl
@[simp] theorem State.setLine_gates (c : LineController) : (s.setLine c).gates = s.gates := rfl
@[simp] theorem State.setLine_handsets (c : LineController) : (s.setLine c).handsets = s.handsets := rfl
@[simp] theorem State.setLine_bind (c : LineController) : (s.setLine c).bind = s.bind := rfl
@[simp] theorem State.setLine_occ (c : LineController) : (s.setLine c).occ = s.occ := rfl
@[simp] theorem State.setLine_grants (c : LineController) : (s.setLine c).grants = s.grants := rfl
@[simp] theorem State.setLine_blades (c : LineController) : (s.setLine c).blades = s.blades := rfl
@[simp] theorem State.setLine_line (c : LineController) : (s.setLine c).line = c := rfl
@[simp] theorem State.setLine_draws (c : LineController) : (s.setLine c).draws = s.draws := rfl
@[simp] theorem State.setLine_pending (c : LineController) : (s.setLine c).pending = s.pending := rfl

@[simp] theorem State.updateHandset_now (a : HandsetAddr) (f : HandsetEntry → HandsetEntry) : (s.updateHandset a f).now = s.now := rfl
@[simp] theorem State.updateHandset_node (a : HandsetAddr) (f : HandsetEntry → HandsetEntry) : (s.updateHandset a f).node = s.node := rfl
@[simp] theorem State.updateHandset_pins (a : HandsetAddr) (f : HandsetEntry → HandsetEntry) : (s.updateHandset a f).pins = s.pins := rfl
@[simp] theorem State.updateHandset_sup (a : HandsetAddr) (f : HandsetEntry → HandsetEntry) : (s.updateHandset a f).sup = s.sup := rfl
@[simp] theorem State.updateHandset_nv (a : HandsetAddr) (f : HandsetEntry → HandsetEntry) : (s.updateHandset a f).nv = s.nv := rfl
@[simp] theorem State.updateHandset_gates (a : HandsetAddr) (f : HandsetEntry → HandsetEntry) : (s.updateHandset a f).gates = s.gates := rfl
@[simp] theorem State.updateHandset_handsets (a : HandsetAddr) (f : HandsetEntry → HandsetEntry) : (s.updateHandset a f).handsets = s.handsets.map (fun e => if e.address = a then f e else e) := rfl
@[simp] theorem State.updateHandset_bind (a : HandsetAddr) (f : HandsetEntry → HandsetEntry) : (s.updateHandset a f).bind = s.bind := rfl
@[simp] theorem State.updateHandset_occ (a : HandsetAddr) (f : HandsetEntry → HandsetEntry) : (s.updateHandset a f).occ = s.occ := rfl
@[simp] theorem State.updateHandset_grants (a : HandsetAddr) (f : HandsetEntry → HandsetEntry) : (s.updateHandset a f).grants = s.grants := rfl
@[simp] theorem State.updateHandset_blades (a : HandsetAddr) (f : HandsetEntry → HandsetEntry) : (s.updateHandset a f).blades = s.blades := rfl
@[simp] theorem State.updateHandset_line (a : HandsetAddr) (f : HandsetEntry → HandsetEntry) : (s.updateHandset a f).line = s.line := rfl
@[simp] theorem State.updateHandset_draws (a : HandsetAddr) (f : HandsetEntry → HandsetEntry) : (s.updateHandset a f).draws = s.draws := rfl
@[simp] theorem State.updateHandset_pending (a : HandsetAddr) (f : HandsetEntry → HandsetEntry) : (s.updateHandset a f).pending = s.pending := rfl

@[simp] theorem State.dropHandset_now (a : HandsetAddr) : (s.dropHandset a).now = s.now := rfl
@[simp] theorem State.dropHandset_node (a : HandsetAddr) : (s.dropHandset a).node = s.node := rfl
@[simp] theorem State.dropHandset_pins (a : HandsetAddr) : (s.dropHandset a).pins = s.pins := rfl
@[simp] theorem State.dropHandset_sup (a : HandsetAddr) : (s.dropHandset a).sup = s.sup := rfl
@[simp] theorem State.dropHandset_nv (a : HandsetAddr) : (s.dropHandset a).nv = s.nv := rfl
@[simp] theorem State.dropHandset_gates (a : HandsetAddr) : (s.dropHandset a).gates = s.gates := rfl
@[simp] theorem State.dropHandset_handsets (a : HandsetAddr) : (s.dropHandset a).handsets = s.handsets.filter (fun e => decide (e.address ≠ a)) := rfl
@[simp] theorem State.dropHandset_bind (a : HandsetAddr) : (s.dropHandset a).bind = s.bind := rfl
@[simp] theorem State.dropHandset_occ (a : HandsetAddr) : (s.dropHandset a).occ = s.occ := rfl
@[simp] theorem State.dropHandset_grants (a : HandsetAddr) : (s.dropHandset a).grants = s.grants := rfl
@[simp] theorem State.dropHandset_blades (a : HandsetAddr) : (s.dropHandset a).blades = s.blades := rfl
@[simp] theorem State.dropHandset_line (a : HandsetAddr) : (s.dropHandset a).line = s.line := rfl
@[simp] theorem State.dropHandset_draws (a : HandsetAddr) : (s.dropHandset a).draws = s.draws := rfl
@[simp] theorem State.dropHandset_pending (a : HandsetAddr) : (s.dropHandset a).pending = s.pending := rfl

end Sys2Proof.Machine
end

