-- ==== Sys2Proof/Laws/Time.lean ====
section
/-! SUPPORT. The arithmetic of times: a duration before or after a time as one signed offset, and the difference of two offsets. -/

namespace Sys2Proof.Machine

/-- A signed number of ticks after a time. -/
def Time.shift (t : Time) (k : Int) : Time := t + BitVec.ofInt 32 k

theorem Time.plus_eq_shift (t : Time) (n : Nat) : Time.plus t n = Time.shift t n := by
  simp [Time.plus, Time.shift]

theorem Time.minus_eq_shift (t : Time) (n : Nat) : Time.minus t n = Time.shift t (-n) := by
  simp [Time.minus, Time.shift, BitVec.ofInt_neg, BitVec.sub_eq_add_neg]

@[simp] theorem Time.shift_zero (t : Time) : Time.shift t 0 = t := by simp [Time.shift]

@[simp] theorem Time.shift_shift (t : Time) (a b : Int) : Time.shift (Time.shift t a) b = Time.shift t (a + b) := by
  simp [Time.shift, BitVec.add_assoc, ← BitVec.ofInt_add]

/-- The difference of two offsets from one time, within half the range. -/
theorem Time.diff_shift (t : Time) (a b : Int) (h : -2147483648 ≤ b - a) (h' : b - a < 2147483648) :
    Time.diff (Time.shift t a) (Time.shift t b) = b - a := by
  have e : (Time.shift t b - Time.shift t a) = BitVec.ofInt 32 (b - a) := by
    apply BitVec.eq_of_toInt_eq
    simp [Time.shift, BitVec.toInt_sub, BitVec.toInt_ofInt]
  rw [Time.diff, e, BitVec.toInt_ofInt]
  simp [Int.bmod]
  split <;> omega

/-- Every time is an offset from every other. -/
theorem Time.shift_diff (a b : Time) : Time.shift a (Time.diff a b) = b := by
  rw [Time.shift, Time.diff, BitVec.ofInt_toInt, BitVec.add_comm, BitVec.sub_add_cancel]

/-- The range of a difference. -/
theorem Time.diff_range (a b : Time) : -2147483648 ≤ Time.diff a b ∧ Time.diff a b < 2147483648 := by
  unfold Time.diff
  have h1 := BitVec.le_toInt (b - a)
  have h2 := BitVec.toInt_lt (x := b - a)
  omega

/-- Differences add where their sum stays within half the range. -/
theorem Time.diff_trans (a b c : Time) (h : -2147483648 ≤ Time.diff a b + Time.diff b c)
    (h' : Time.diff a b + Time.diff b c < 2147483648) : Time.diff a c = Time.diff a b + Time.diff b c := by
  have e : c = Time.shift a (Time.diff a b + Time.diff b c) := by
    rw [← Time.shift_shift, Time.shift_diff, Time.shift_diff]
  have k := Time.diff_shift a 0 (Time.diff a b + Time.diff b c) (by omega) (by omega)
  rw [Time.shift_zero, ← e] at k
  omega

/-- The difference the other way, but at the one value with no opposite. -/
theorem Time.diff_swap (a b : Time) (h : Time.diff a b ≠ -2147483648) : Time.diff b a = -Time.diff a b := by
  have r := Time.diff_range a b
  have k := Time.diff_shift a (Time.diff a b) 0 (by omega) (by omega)
  rw [Time.shift_diff, Time.shift_zero] at k
  omega

/-- A difference of 0 means the same time. -/
theorem Time.eq_of_diff (a b : Time) (h : Time.diff a b = 0) : a = b := by
  have := Time.shift_diff a b
  rw [h, Time.shift_zero] at this
  exact this

@[simp] theorem Time.diff_self (a : Time) : Time.diff a a = 0 := by simp [Time.diff]

/-- A time ahead of the present has not arrived. -/
theorem arrived_plus (t : Time) (n : Nat) (h : 0 < n) (h' : n < 2147483648) : arrived t (Time.plus t n) = false := by
  have k := Time.diff_shift t n 0 (by omega) (by omega)
  simp only [Time.shift_zero] at k
  simp only [arrived, Time.atOrBefore, Time.plus_eq_shift, k, decide_eq_false_iff_not]
  omega

/-- The travel time does not fall with distance, and is capped (R8). -/
theorem travel_mono {x y : Nat} (p : Nat) (h : x ≤ y) : travel x p ≤ travel y p ∧ travel y p ≤ 32767 := by
  have := Nat.mul_le_mul_right p h
  unfold travel Config.greatestTravel
  omega

end Sys2Proof.Machine
end

