-- ==== Sys2Proof/WellFormed.lean ====
section
/-! DEFINITION. Which commands could be offered at all: the checks on their operands that do not depend on the state.
`exec` is total and does not ask for them; a statement may. -/

namespace Sys2Proof

/-- The bits of one frame to its end: at least the start bit, at most the 245 of the longest frame (R144). -/
def wellFormedBits (bits : List Bool) : Bool := decide (1 ≤ bits.length) && decide (bits.length ≤ 245)

/-- The operands lie in the ranges their rules give. -/
def wellFormed : Instr → Bool
  | .handsetFrame levels span => decide (Config.charBits + Config.quietBits < levels.length) && decide (span < Config.ageCap)
  | .handsetStaleRemoval a => decide (a ≠ 0#16) && decide (a ≠ 65535#16)
  | .requestExpiry a => decide (a ≠ 0#16) && decide (a ≠ 65535#16)
  | .gestureLapse a => decide (a ≠ 0#16) && decide (a ≠ 65535#16)
  | .occupancyExpiry i => decide (i < Config.occupancyCap)
  | .approachExpiry i => decide (i < Config.approachCap)
  | .claimExpiry i => decide (i < Config.claimCap)
  | .frameDeadline i => decide (i < Config.queueCap)
  | .arbitrationLoss p => decide (1 ≤ p) && decide (p ≤ 13) && decide (p ≠ 9)
  | .bitFault p => decide (p < 245)
  | .frameDiscarded bits => wellFormedBits bits
  | .passReceived bits _ => wellFormedBits bits
  | .bindReceived bits _ => wellFormedBits bits
  | .joinReceived bits _ => wellFormedBits bits
  | .heatReceived bits _ => wellFormedBits bits
  | .beaconReceived bits _ => wellFormedBits bits
  | .cfgdReceived bits _ => wellFormedBits bits
  | .cfgrReceived bits _ => wellFormedBits bits
  | .cfgwReceived bits _ => wellFormedBits bits
  | .cfgxReceived bits _ => wellFormedBits bits
  | .lineReady bits => decide (1 ≤ bits.length)
  | .irEdge .. | .passageClose .. | .stallDeclaration .. | .stallEnd .. | .noticeComplete .. | .blankingEnd ..
  | .noticeRunRepeat .. | .saveComplete | .laneHoldEnd .. | .neighbourSilence .. | .grantLate .. | .coilPulseEnd ..
  | .bladeThrow .. | .bladeRelease .. | .coolingEnd .. | .openCoil .. | .attemptStart .. | .attemptComplete
  | .beaconTimer | .configWriteComplete | .powerOn .. | .loadReadComplete .. | .syncEnd | .trackPowerAbsent ..
  | .trackPowerReturn | .debounceComplete | .retentionLow | .resetAssert | .resetRelease | .heatPress | .tick
  | .levelSettled .. | .coilPulseStart | .heatInputReleased | .retentionEnds => true

end Sys2Proof
end

