-- ==== Sys2Proof/Tests/Slice0.lean ====
section
/-! SUPPORT. Tests: figures of the manual's worked examples, one step at a time on small states; an ill-formed command for each check of
WellFormed; and, for each statement with hypotheses, a state and operands that meet them, clause by clause. -/

namespace Sys2Proof.Tests

set_option Elab.async false

open Sys2Proof Sys2Proof.Machine Sys2Proof.Safety

/-! ## States -/

/-- The state after a command. -/
def after (c : Instr) (s : State) : State :=
  match exec c s with
  | .next t => t
  | .fault .. | .refused _ => s

/-- Node 12 as configured in the worked figures of 01, with four lanes and a right blade on lane 2 (09, 13). -/
def node12 : Working :=
  { Working.default with
    address := 12, upstream := 11, downstream := 13, lanes := 4, sides := ⟨none, some .right, none, none⟩, gu := 1500, gd := 900 }

/-- Node 12 in RUN at 200000, with nothing on the piece, its blade REST and its gates dark. -/
def run12 : State :=
  { State.reset with
    now := 200000
    node := .run
    sup := { State.reset.sup with
      mirror := { State.reset.sup.mirror with working := node12 }, setupAddress := 12, nvBusy := false, cameOn := some 100000,
      load := .idle }
    gates := PerLane.const { Gate.off with level := some false, previous := some false }
    occ := { State.reset.occ with
      up := { address := 11, lastHeard := some 199000, geometry := none },
      down := { address := 13, lastHeard := some 199000, geometry := some { ds := 150, dm := 200, lanes := 4 } } }
    blades := PerLane.set (PerLane.const Blade.absent) .l2 { Blade.absent with state := .rest }
    line := { LineController.silent 0 with state := .ready, beacon := some 199000 } }

/-- The same in another node state. -/
def run12In (n : NodeState) : State := { run12 with node := n }

/-- Handset 4121's entry, with a press of right, 7 latched. -/
def h4121 : HandsetEntry :=
  { address := 4121, lastHeard := 199800, pressCount := 7, programCount := 0, gesture := .none, gestureTime := 199800,
    fresh := false, resync := false, request := some { dir := .right, count := 7, latched := 199800 } }

/-- Car 5 bound to 4121. -/
def bound5 : State :=
  { run12.setBinding 4 { handset := some 4121, stamp := 3, origin := 20, kept := false, standing := .empty } with
    handsets := [h4121] }

/-- Car 5's passage over gate 2: t_ref 200000, dwell 90 (07). -/
def passage5 : Passage := { first := 199910, last := 200000, code := .read 5, frames := 2 }

/-- The passage 24 ticks after its last edge. -/
def crossed : State :=
  { bound5 with
    now := 200024
    gates := bound5.gates.set .l2 { bound5.gates.get .l2 with state := .open passage5, gap := 24 } }

/-- Car 5's grant after the decision at 200024 (07, 13). -/
def granted : State := after (.passageClose .l2) crossed

/-- Car 5's grant committed at 200061 (13). -/
def committed : State :=
  after .attemptComplete { after (.attemptStart 0) { granted with now := 200046 } with now := 200061 }

/-- The grant of the slot of lane 2. -/
def grant5 : Grant :=
  { state := .provisional, code := 5, handset := 4121, used := .press 7, target := .l3, tRef := 200000, pace := ⟨60, false, false⟩,
    throwAt := 200595, releaseAt := 200958, window := ⟨200655, 201783⟩, frame := some 0 }

/-- Recessive bits. -/
def ones (n : Nat) : List Bool := List.replicate n true

/-- The wire bits of a PASS notice from a node, with a payload that starts at a time. -/
def passWire (from_ : NodeAddr) (p : PassBody) (payloadStart : Time) : List Bool :=
  frameWire 0 .pass from_ (bitsOf (encodePass p (noticeAge payloadStart p.tRef)))

/-- Node 13's TAKEN of car 2: the fields of its notice with an age of 28 (13). -/
def taken2 : PassBody :=
  { code := 2, laneIn := .l2, laneOut := .l3, outcome := .taken, pressed := none, order := none, pace := ⟨200, false, false⟩,
    tRef := 199990, startOffset := 1855, endOffset := 5270 }

/-- Node 11's STRAIGHT of car 14: pace 20, t_up 199300 (13). -/
def straight14 : PassBody :=
  { code := 14, laneIn := .l3, laneOut := .l3, outcome := .straight, pressed := none, order := none, pace := ⟨20, false, false⟩,
    tRef := 199300, startOffset := 0, endOffset := 0 }

/-- The wire bits of a frame with no payload, or with one given as a word. -/
def wireOf {w : Nat} (level : BitVec 2) (kind : FrameKind) (from_ : NodeAddr) (payload : BitVec w) : List Bool :=
  frameWire level kind from_ (bitsOf payload)

/-- Five characters with good stop bits. -/
def chars (a b c d e : Byte) : List SerialChar := [⟨a, true⟩, ⟨b, true⟩, ⟨c, true⟩, ⟨d, true⟩, ⟨e, true⟩]

/-- The frame of handset 4121: press count 7 to the left, no gesture, program count 1 to the right with value 3 (12). -/
def frame4121 : List SerialChar := chars 16 25 112 108 234

/-- Characters on the handset line, after one bit time of mark and closed by 15. -/
def onLine (cs : List SerialChar) : List Bool := true :: cs.flatMap SerialChar.levels ++ ones 15

/-- A gate in STALL with car 5 coded. -/
def stalled5 : Gate :=
  { Gate.off with
    level := some true, previous := some true,
    state := .stall { first := 190000, last := 199990, code := .read 5, frames := 9 } (some { code := 5, frames := 9 }) (some 5) }

/-- Node 12 with car 5 stalled on gate 2. -/
def stalled : State := { bound5 with gates := bound5.gates.set .l2 stalled5 }

/-- Node 12's block (12). -/
def block12 : Block :=
  let f : BitVec 120 := 12#6 ++ 11#6 ++ 13#6 ++ 4#3 ++ 0b00100000#8 ++ 24#6 ++ 180#10 ++ 220#10 ++ 70#8 ++ 1500#13 ++ 900#13 ++
    20#8 ++ 80#8 ++ 16#6 ++ 4#5 ++ 0#4
  { fields := f, check := checkByte f }

/-- The part in LOAD with node 12's block in its store. -/
def load12 : State := { State.reset with nv := { Nv.delivered with block := block12 } }

/-- A part in SETUP at setup address 0, the line ready. -/
def setup : State :=
  { after (.loadReadComplete false) { State.reset with now := 469 } with
    line := { LineController.silent 0 with state := .ready } }

/-- Node 12 in HOLDUP since 230200, an unsaved binding save under way (13). -/
def heldUp : State := after (.trackPowerAbsent true) { bound5 with now := 230200, bind := { bound5.bind with unsaved := true } }

/-- A HEAT frame at its deadline. -/
def heat1 : TxFrame :=
  { id := 0, level := 1, originator := 12, body := .heat, deadline := 200000, queued := 192187, owner := .supervisor }

/-- The frame that wire bits spell. -/
def frameOf (bits : List Bool) : GoodFrame :=
  (goodFrame bits).getD { level := 0, kind := .heat, originator := 0, payload := [] }

/-- Car 5's TAKEN frame in the queue. -/
def queued5 : TxFrame := granted.line.queue.headD heat1

/-! ## Figures of the manual -/

/-- 01: a time just before the wrap lies before one just after it. -/
theorem test_wrap : Time.before 4294967290#32 10#32 = true ∧ Time.diff 4294967290#32 10#32 = 16 := by decide +kernel

/-- 01: the delivered request hold is 62496 ticks; a dwell of 90 over 24 mm is a pace of 60. -/
theorem test_units : requestHoldTicks Working.default = 62496 ∧ (Pace.ofDwell 24 90).ticks = 60 := by decide +kernel

/-- 01: at a pace of 62, T(180) is 698; at pace 4, T(40) is 10. -/
theorem test_travel : travel 180 62 = 698 ∧ travel 40 4 = 10 := by decide +kernel

/-- 12: car 5's TAKEN at node 12, its bytes 0 to 2 and its pace. -/
theorem test_pass_bytes :
    let p : PassBody := { taken2 with code := 5, pressed := some 7, pace := ⟨60, false, false⟩, startOffset := 655, endOffset := 1783 }
    (encodePass p 48).extractLsb' 64 24 = 0b010101100111010001110000#24 ∧
    (encodePass p 48).extractLsb' 48 12 = 60#12 ∧ (encodePass p 48).extractLsb' 32 16 = 48#16 := by decide +kernel

/-- 12: a PASS from node 12 opens with level 00, kind 0000, originator 001100 and length 01011; the spacers are recessive. -/
theorem test_wire_header :
    (passWire 12 taken2 200018).take 20 =
      [false, false, false, false, false, false, false, false, false, true, true, true, false, false, false, true, false, true,
       true, true] := by decide +kernel

/-- 12: the delivered default block: its check byte is right, and it is not valid, its own address being 0. -/
theorem test_default_block : Block.default.checkOk = true ∧ Block.default.valid 0 = false := by decide +kernel

/-- R162: the default fields stand at their places. -/
theorem test_default_fields : (readFields Block.default.fields).working = Working.default := by decide +kernel

/-- 02: a release notice for car 9 lasts 120 ticks. -/
theorem test_release_notice : (Notice.ticks { code := 9, handset := 0 }) = 120 := by decide +kernel

/-- 02: the last short mark of code 5's frame, its first seven bits gathered, gives code 5. -/
theorem test_irEdge_reads_code_5 :
    ((after (.irEdge .l2 false false) { bound5 with gates := bound5.gates.set .l2 { Gate.off with
        level := some true, previous := some true, decoder := .frame false [false, true, false, true, true, false, true],
        state := .open { first := 199960, last := 199998, code := .absent, frames := 0 } } }).gates.get .l2).state
      = .open { first := 199960, last := 200000, code := .read 5, frames := 1 } := by decide +kernel

/-- 07, 13: car 5's grant: throw 200595, release 200958, window [200655, 201783]; the press is consumed. -/
theorem test_passageClose_grants :
    granted.grants.slots.get .l2 = some grant5 ∧ granted.handsets.map (·.request) = [none] := by decide +kernel

/-- 07, 13: the TAKEN frame stands queued with the throw time as its deadline, and the TARGET entry linked in lane 3. -/
theorem test_passageClose_queues :
    granted.line.queue.map (fun f => (f.deadline, f.isTaken)) = [(200595, true)] ∧
    granted.occ.list.map (fun e => (e.kind, e.lane, e.start, e.stop, e.link)) =
      [(.passage, .l2, 200655, .at 201783, none), (.target, .l3, 200655, .at 201783, some .l2)] := by decide +kernel

/-- 13: the attempt of tick 200046 has its payload at 200048 and carries an age of 48. -/
theorem test_attemptStart_age :
    (match (after (.attemptStart 0) { granted with now := 200046 }).line.send with
      | .sending a => (goodFrame a.bits).map (fun f => (a.payloadStart, (decodePass (payloadWord 88 f.payload)).age))
      | _ => none) = some (200048, 48) := by decide +kernel

/-- 13: the complete send of 200061 commits the grant and arms B2 for 200595 and 200958. -/
theorem test_attemptComplete_commits :
    committed.blades.get .l2 = { Blade.absent with state := .armed, throwAt := some 200595, releaseAt := some 200958 } ∧
    committed.line.queue = [] := by decide +kernel

/-- 09, 13: B2 is THROWN at 200595. -/
theorem test_bladeThrow : ((after (.bladeThrow .l2) { committed with now := 200595 }).blades.get .l2).coil = true := by
  decide +kernel

/-- 09, 13: B2 released at 200958 rests until 201583, and its slot is free. -/
theorem test_bladeRelease :
    let s := after (.bladeRelease .l2) { after (.bladeThrow .l2) { committed with now := 200595 } with now := 200958 }
    s.blades.get .l2 = { Blade.absent with state := .cooling, coolingEnd := some 201583 } ∧ s.grants.slots.get .l2 = none := by
  decide +kernel

/-- 13: node 13's TAKEN of car 2 brings the claim [201845, 205260], against which car 5's grant yields by 203125. -/
theorem test_passReceived_yields :
    let s := after (.passReceived (passWire 13 taken2 200018) 7) { granted with now := 200031 }
    s.grants.claims.map (·.window) = [⟨201845, 205260⟩] ∧ s.grants.slots.get .l2 = none ∧
    s.line.queue.map (fun f => (f.deadline, f.isTaken)) = [(203125, false)] := by decide +kernel

/-- 13: node 11's STRAIGHT of car 14, received at 200113, makes the record [201380, 201783] and aborts the armed grant. -/
theorem test_passReceived_aborts :
    let s := after (.passReceived (passWire 11 straight14 200100) 7)
      { committed with now := 200113, line := { committed.line with state := .ready } }
    s.occ.approach.map (·.window) = [⟨201380, 201783⟩] ∧
    s.blades.get .l2 = { Blade.absent with state := .cooling, coolingEnd := some 200738 } ∧ s.grants.slots.get .l2 = none := by
  decide +kernel

/-- R26, R79, R98: 8192 ticks after its first edge car 5's passage is a stall; a STALL entry with an open end stands, and STALLED
is queued. -/
theorem test_stallDeclaration :
    let s := after (.stallDeclaration .l2) { crossed with now := 199910 + 8192 }
    s.occ.list.map (fun e => (e.kind, e.code, e.pace.ticks, e.stop)) = [(.stall, 5, 4095, .open)] ∧
    (s.gates.get .l2).codedStall = some 5 ∧ s.line.queue.length = 1 := by decide +kernel

/-- R28, R79: the stall's end gives its entry the window end 32767 ticks on. -/
theorem test_stallEnd :
    let d := after (.stallDeclaration .l2) { crossed with now := 199910 + 8192 }
    let s := after (.stallEnd .l2) { d with now := 210000 }
    s.occ.list.map (·.stop) = [.at 242767] ∧ (s.gates.get .l2).state = .idle := by decide +kernel

/-- R31, R33: the pending release notice of car 9 starts when the first is sent; blanking lasts 4 ticks more. -/
theorem test_noticeComplete :
    let g := { stalled5 with
      sending := some { notice := { code := 9, handset := 4121 }, ends := 200000 }, waiting := some { code := 9, handset := 0 },
      blanking := some 200004 }
    let s := after (.noticeComplete .l2) { stalled with gates := stalled.gates.set .l2 g }
    (s.gates.get .l2).sending = some { notice := { code := 9, handset := 0 }, ends := 200120 } ∧
    (s.gates.get .l2).blanking = some 200124 := by decide +kernel

/-- R33: sampling resumes, and the accepted level stands. -/
theorem test_blankingEnd :
    let s := after (.blankingEnd .l2) { stalled with gates := stalled.gates.set .l2 { stalled5 with blanking := some 200000 } }
    (s.gates.get .l2).blanking = none ∧ (s.gates.get .l2).level = some true := by decide +kernel

/-- 03, 12: a frame of press count 7 to the left over an entry of press count 5 latches one request: left, 7; its program is
right, 3. -/
theorem test_handsetFrame_press :
    let s := after (.handsetFrame (onLine frame4121) 9) { bound5 with handsets := [{ h4121 with pressCount := 5, request := none }] }
    s.handsets.map (·.request) = [some { dir := .left, count := 7, latched := 200000 }] ∧
    (s.bind.entries.get 4).standing = .order .right 3 := by decide +kernel

/-- 04: BIND held by a new handset while car 5 stands coded binds it with one stamp more, queues a level-1 BIND and starts a
notice run. -/
theorem test_handsetFrame_binds :
    let s := after (.handsetFrame (onLine (chars 0x14 0x1e 0x02 0 0xf7)) 9) stalled
    s.bind.entries.get 4 = { handset := some 5150, stamp := 4, origin := 12, kept := false, standing := .empty } ∧
    s.line.queue.map (fun f => (f.level, f.deadline)) = [(1, 207813)] ∧
    s.bind.runs.get .l2 = some { car := 4, count := 1, nextAt := 200781 } := by decide +kernel

/-- R39: an unbound entry goes at 31250 ticks, and not before. -/
theorem test_handsetStaleRemoval :
    (after (.handsetStaleRemoval 4121) { run12 with handsets := [{ h4121 with lastHeard := 168750 }] }).handsets = [] ∧
    (after (.handsetStaleRemoval 4121) { run12 with handsets := [{ h4121 with lastHeard := 168751 }] }).handsets.length = 1 := by
  decide +kernel

/-- 01, R42: with the delivered request hold a press is kept for 62496 ticks. -/
theorem test_requestExpiry :
    (after (.requestExpiry 4121) { bound5 with now := 262296 }).handsets.map (·.request) = [none] ∧
    (after (.requestExpiry 4121) { bound5 with now := 262295 }) = { bound5 with now := 262295 } := by decide +kernel

/-- R45: a gesture lapses 1563 ticks after its last frame. -/
theorem test_gestureLapse :
    (after (.gestureLapse 4121) { bound5 with
      handsets := [{ h4121 with gesture := .bind, fresh := true, gestureTime := 198437 }] }).handsets.map (·.freshGesture) = [.none] := by
  decide +kernel

/-- R58: the fortieth notice ends a run. -/
theorem test_noticeRunRepeat :
    (after (.noticeRunRepeat .l2) (stalled.setRun .l2 (some { car := 4, count := 38, nextAt := 200000 }))).bind.runs.get .l2
      = some { car := 4, count := 39, nextAt := 200781 } ∧
    (after (.noticeRunRepeat .l2) (stalled.setRun .l2 (some { car := 4, count := 39, nextAt := 200000 }))).bind.runs.get .l2
      = none := by decide +kernel

/-- 13: the save of 230200 is complete at 230575: VALID, and the unsaved mark clear. -/
theorem test_saveComplete :
    let s := after .saveComplete { heldUp with now := 230575 }
    s.nv.saveMark = 1 ∧ s.bind.unsaved = false ∧ s.sup.nvBusy = false ∧
    s.nv.records.get 4 = 0x9410190003#40 := by decide +kernel

/-- 13: TARGET 5 and PASSAGE 5 expire at 201783. -/
theorem test_occupancyExpiry :
    (after (.occupancyExpiry 0) { granted with now := 201783 }).occ.list.map (·.kind) = [.target] ∧
    (after (.occupancyExpiry 0) { granted with now := 201782 }).occ.list.length = 2 := by decide +kernel

/-- 06: lane 1 is held until 205010. -/
theorem test_laneHoldEnd :
    isHeld (after (.laneHoldEnd .l1) { run12.setHold .l1 (some 205010) with now := 205010 }) .l1 = false ∧
    isHeld (after (.laneHoldEnd .l1) { run12.setHold .l1 (some 205010) with now := 205009 }) .l1 = true := by decide +kernel

/-- 13: node 11's claim of car 5 expires at 241783. -/
theorem test_claimExpiry :
    let s := run12.setClaims [{ originator := 13, code := 5, lane := .l3, window := ⟨240655, 241783⟩ }]
    (after (.claimExpiry 0) { s with now := 241783 }).grants.claims = [] ∧
    (after (.claimExpiry 0) { s with now := 241782 }).grants.claims.length = 1 := by decide +kernel

/-- R90: an approach record expires at its window end. -/
theorem test_approachExpiry :
    let r : ApproachRecord := { code := 14, lane := .l3, outcome := .straight, arrival := 201175, pace := ⟨20, false, false⟩,
                                window := ⟨201380, 201783⟩, bladeTime := 201400 }
    (after (.approachExpiry 0) { run12.setApproach [r] with now := 201783 }).occ.approach = [] := by decide +kernel

/-- 06: an upstream neighbour last heard at 400000 makes the node blind from 415625. -/
theorem test_neighbourSilence :
    let s := { run12 with occ := { run12.occ with up := { run12.occ.up with lastHeard := some 400000 } } }
    isBlind (after (.neighbourSilence .upstream) { s with now := 415625 }) = true ∧
    isBlind (after (.neighbourSilence .upstream) { s with now := 415624 }) = false := by decide +kernel

/-- R125, R127: the grant whose throw time has come ends LATE, its notice due by t_ref + 3125. -/
theorem test_grantLate :
    let s := after (.grantLate .l2) { granted with now := 200595 }
    s.grants.slots.get .l2 = none ∧ s.line.queue.map (fun f => (f.deadline, f.isTaken)) = [(203125, false)] ∧
    s.occ.list.map (·.kind) = [.passage] := by decide +kernel

/-- R155: a TAKEN frame taken at its deadline ends its grant as LATE too. -/
theorem test_frameDeadline :
    after (.frameDeadline 0) { granted with now := 200595 } = after (.grantLate .l2) { granted with now := 200595 } := by
  decide +kernel

/-- 09: B2 is pulsed for 8 ticks, and its current reads present: REST, and node 12 goes on to SYNC. -/
theorem test_coilPulseEnd :
    let s := after (.coilPulseEnd true false) { after (.loadReadComplete false) { load12 with now := 469 } with now := 477 }
    (s.blades.get .l2).state = .rest ∧ s.node = .sync := by decide +kernel

/-- 09: with the coil's lead broken, B2 is ABSENT. -/
theorem test_coilPulseEnd_broken :
    ((after (.coilPulseEnd false false)
      { after (.loadReadComplete false) { load12 with now := 469 } with now := 477 }).blades.get .l2).state = .absent := by
  decide +kernel

/-- R134: 8 ticks after a pulse the next lane's begins. -/
theorem test_coilPulseStart :
    ((after .coilPulseStart { load12 with now := 485, sup := { load12.sup with load := .rest .l3 477 } }).blades.get .l3).coil = true := by
  decide +kernel

/-- 09: B2 at rest from 201583. -/
theorem test_coolingEnd :
    ((after (.coolingEnd .l2) { run12.setBlade .l2 { Blade.absent with state := .cooling, coolingEnd := some 201583 } with
      now := 201583 }).blades.get .l2).state = .rest := by decide +kernel

/-- R140: readings from throw + 4 count, two in a row: at throw + 4 one is not enough, at throw + 5 the blade is FAILED. -/
theorem test_openCoil :
    let s := after (.bladeThrow .l2) { committed with now := 200595 }
    ((after (.openCoil .l2 false false) { s with now := 200599 }).blades.get .l2).state = .thrown ∧
    ((after (.openCoil .l2 false false) { s with now := 200600 }).blades.get .l2).state = .failed := by decide +kernel

/-- 10: nodes 12 and 13 start together; node 13 loses at the twelfth header bit, position 13. -/
theorem test_arbitrationLoss :
    (passWire 12 taken2 200018).take 13 = (passWire 13 taken2 200018).take 13 ∧
    (passWire 12 taken2 200018)[13]? = some false ∧ (passWire 13 taken2 200018)[13]? = some true := by decide +kernel

/-- R149: the start bit read recessive is a bit fault. -/
theorem test_bitFault :
    (match (after (.bitFault 0) (after (.attemptStart 0) { granted with now := 200046 })).line.send with
      | .faulted r => r.read
      | _ => []) = [true] := by decide +kernel

/-- R157: 3906 ticks after the last own transmission a BEACON of the piece is queued at level 3. -/
theorem test_beaconTimer :
    (after .beaconTimer { run12 with now := 202906 }).line.queue.map (fun f => (f.level, f.body, f.deadline)) =
      [(3, .beacon 180 220 4, 206812)] := by decide +kernel

/-- R151: a frame with one CRC bit wrong is discarded. -/
theorem test_frameDiscarded :
    let bits := wireOf 1 .heat 11 0#0
    (after (.frameDiscarded (bits.dropLast ++ [!bits.getLast!])) run12).line.state = .waitIdle 0 ∧
    (after (.frameDiscarded bits) run12) = run12 := by decide +kernel

/-- 13: node 20's BIND: car 9 to 6020 at stamp 2. -/
theorem test_bindReceived :
    (after (.bindReceived (wireOf 1 .bind 20 (encodeBind { code := 9, handset := 6020, stamp := 2, origin := 20, kept := false })) 7)
      run12).bind.entries.get 8 = { handset := some 6020, stamp := 2, origin := 20, kept := false, standing := .empty } := by
  decide +kernel

/-- 04: against stamp 3 and origin 20, stamp 3 with origin 12 is newer, and with origin 31 older. -/
theorem test_bindReceived_order :
    let bind (o : NodeAddr) := Instr.bindReceived
      (wireOf 1 .bind 9 (encodeBind { code := 5, handset := 5150, stamp := 3, origin := o, kept := false })) 7
    ((after (bind 12) bound5).bind.entries.get 4).handset = some 5150 ∧
    ((after (bind 31) bound5).bind.entries.get 4).handset = some 4121 := by decide +kernel

/-- 13: a JOIN of the downstream neighbour is answered with a level-2 BIND of each entry with a stamp above 0. -/
theorem test_joinReceived :
    let s := after (.joinReceived (wireOf 2 .join 13 0#0) 7) bound5
    s.line.queue.map (fun f => (f.level, f.body)) =
      [(2, .bind { code := 5, handset := 4121, stamp := 3, origin := 20, kept := false })] ∧ s.bind.cursor = none := by
  decide +kernel

/-- R64: HEAT frees an unkept binding at its stamp. -/
theorem test_heatReceived :
    (after (.heatReceived (wireOf 1 .heat 9 0#0) 7) bound5).bind.entries.get 4 =
      { handset := none, stamp := 3, origin := 20, kept := false, standing := .empty } := by decide +kernel

/-- R91: a BEACON sets its originator's last-heard time and geometry. -/
theorem test_beaconReceived :
    (after (.beaconReceived (wireOf 3 .beacon 11 (encodeBeacon 160 210 3)) 7) run12).occ.up =
      { address := 11, lastHeard := some 200000, geometry := some { ds := 160, dm := 210, lanes := 3 } } := by decide +kernel

/-- R153: a CFGD sets its originator's last-heard time alone. -/
theorem test_cfgdReceived :
    (after (.cfgdReceived (wireOf 3 .cfgd 11 (encodeBlock block12)) 7) run12).occ.up =
      { address := 11, lastHeard := some 200000, geometry := none } := by decide +kernel

/-- R165: a CFGR is answered with the image. -/
theorem test_cfgrReceived :
    (after (.cfgrReceived (wireOf 3 .cfgr 63 0#8) 7) setup).line.queue.map (fun f => (f.level, f.body, f.originator)) =
      [(3, .cfgd Block.default, 0)] := by decide +kernel

/-- R166: a CFGW begins a write; 313 ticks later the block stands in the store. -/
theorem test_cfgwReceived :
    let s := after (.cfgwReceived (wireOf 3 .cfgw 63 (0#8 ++ encodeBlock block12)) 7) setup
    s.nv.writeMark = 1 ∧ s.sup.nvBusy = true ∧
    (after .configWriteComplete { s with now := 782 }).nv = { setup.nv with block := block12, writeMark := 0 } := by
  decide +kernel

/-- R165: a CFGX takes the node into LOAD at track time 0. -/
theorem test_cfgxReceived :
    let s := after (.cfgxReceived (wireOf 3 .cfgx 63 0#8) 7) setup
    s.node = .load ∧ s.now = 0 ∧ s.sup.load = .reading 0 := by decide +kernel

/-- R160: power-on of a part as delivered. -/
theorem test_powerOn : after (.powerOn false) State.delivered = State.reset := by decide +kernel

/-- R161: the read takes 469 ticks; the delivered block is not valid, and the part goes to SETUP. -/
theorem test_loadReadComplete :
    (after (.loadReadComplete false) { State.reset with now := 469 }).node = .setup ∧
    after (.loadReadComplete false) { State.reset with now := 468 } = { State.reset with now := 468 } := by decide +kernel

/-- 13: SYNC entered at 233000 ends at 240813. -/
theorem test_syncEnd :
    let s := { run12In .sync with sup := { run12.sup with cameOn := some 233000 } }
    (after .syncEnd { s with now := 240813 }).node = .run ∧ (after .syncEnd { s with now := 240812 }).node = .sync := by
  decide +kernel

/-- 13: track power absent at 230200: HOLDUP, the lists cleared, the save begun. -/
theorem test_trackPowerAbsent :
    heldUp.node = .holdup ∧ heldUp.nv.saveMark = 0 ∧ heldUp.sup.save = some 230200 ∧ heldUp.sup.nvBusy = true := by decide +kernel

/-- 13: power returns at 230656, and the debounce starts. -/
theorem test_trackPowerReturn :
    (after .trackPowerReturn { heldUp with now := 230656 }).sup.debounce = some 230656 := by decide +kernel

/-- 13: the debounce is complete at 233000: SYNC, a JOIN queued, the resync marks set. -/
theorem test_debounceComplete :
    let s := after .debounceComplete { after .trackPowerReturn { heldUp with now := 230656 } with now := 233000 }
    s.node = .sync ∧ s.line.queue.map (·.body) = [.join] ∧ s.handsets.map (·.resync) = [true] := by decide +kernel

/-- 13: retention that falls during the save leaves it INVALID. -/
theorem test_retentionLow :
    let s := after .retentionLow { heldUp with now := 230400 }
    s.node = .off ∧ s.nv.saveMark = 0 := by decide +kernel

/-- R160: the end of retention is OFF. -/
theorem test_retentionEnds : (after .retentionEnds run12).node = .off := by decide +kernel

/-- R171: the reset input held: LOAD, waiting. -/
theorem test_resetAssert :
    (after .resetAssert run12).node = .load ∧ (after .resetAssert run12).sup.load = .heldInReset := by decide +kernel

/-- R171: its release begins the read. -/
theorem test_resetRelease : (after .resetRelease (after .resetAssert run12)).sup.load = .reading 0 := by decide +kernel

/-- R172: a press of 156 ticks is taken once. -/
theorem test_heatPress :
    let s := after .heatPress { bound5 with sup := { bound5.sup with heatReleased := some 199844 } }
    (s.bind.entries.get 4).handset = none ∧ s.line.queue.map (·.body) = [.heat] ∧ s.sup.heatReleased = none := by decide +kernel

/-- R172: only a reading of released arms the filter again. -/
theorem test_heatInputReleased : (after .heatInputReleased run12).sup.heatReleased = some 200000 := by decide +kernel

/-- R1: track time wraps from 4294967295 to 0. -/
theorem test_tick : (after .tick { run12 with now := 4294967295 }).now = 0 ∧ (after .tick State.delivered).now = 0 := by
  decide +kernel

/-- R18: the first two samples that agree settle the level. -/
theorem test_levelSettled :
    let s := { run12 with gates := PerLane.const Gate.off }
    ((after (.levelSettled .l1 true true) s).gates.get .l1).level = some true ∧
    ((after (.levelSettled .l1 true false) s).gates.get .l1).level = none := by decide +kernel

/-- R146: ten recessive bits in a row. -/
theorem test_lineReady :
    (after (.lineReady (ones 10)) { run12 with line := { run12.line with state := .waitIdle 0 } }).line.state = .ready ∧
    (after (.lineReady (ones 9)) { run12 with line := { run12.line with state := .waitIdle 0 } }).line.state = .waitIdle 9 := by
  decide +kernel

/-- R146: a dominant bit in READY is the start bit of a frame; its bits are held, and no attempt starts before its end. -/
theorem test_lineReady_frame :
    let s := after (.lineReady [true, false, false, true]) { granted with now := 200030 }
    s.line.state = .frame ∧ s.line.send = .hearing [false, false, true] ∧ after (.attemptStart 0) s = s ∧
    frameEnd (ones 8 ++ [false]) = .broken := by decide +kernel

/-! ## Ill-formed commands, which WellFormed refuses -/

theorem test_wf_handsetFrame : wellFormed (.handsetFrame (ones 25) 9) = false ∧
    wellFormed (.handsetFrame (onLine frame4121) 1048576) = false ∧ wellFormed (.handsetFrame (onLine frame4121) 9) = true := by
  decide +kernel

theorem test_wf_addresses :
    [Instr.handsetStaleRemoval 0, .handsetStaleRemoval 65535, .requestExpiry 0, .requestExpiry 65535, .gestureLapse 0,
      .gestureLapse 65535].map wellFormed = List.replicate 6 false ∧ wellFormed (.requestExpiry 65534) = true := by decide +kernel

theorem test_wf_places :
    [Instr.occupancyExpiry 24, .approachExpiry 16, .claimExpiry 8, .frameDeadline 8].map wellFormed = List.replicate 4 false ∧
    [Instr.occupancyExpiry 23, .approachExpiry 15, .claimExpiry 7, .frameDeadline 7].map wellFormed = List.replicate 4 true := by
  decide +kernel

theorem test_wf_positions :
    [Instr.arbitrationLoss 0, .arbitrationLoss 9, .arbitrationLoss 14, .bitFault 245].map wellFormed = List.replicate 4 false ∧
    [Instr.arbitrationLoss 1, .arbitrationLoss 13, .bitFault 0, .bitFault 244].map wellFormed = List.replicate 4 true := by
  decide +kernel

theorem test_wf_bits :
    ([Instr.frameDiscarded, (.passReceived · 0), (.bindReceived · 0), (.joinReceived · 0), (.heatReceived · 0), (.beaconReceived · 0),
      (.cfgdReceived · 0), (.cfgrReceived · 0), (.cfgwReceived · 0), (.cfgxReceived · 0), .lineReady].map
      (fun c => (wellFormed (c []), wellFormed (c [true])))) = List.replicate 11 (false, true) ∧
    wellFormed (.frameDiscarded (ones 246)) = false := by decide +kernel

/-! ## Hypotheses that are met

One theorem per statement with hypotheses; its parts follow the statement's clauses. -/

theorem witness_StepTakesTheFrontCommand : State.reset.pending = [] := rfl

theorem witness_CommandsLeaveTheWaitingQueue : exec .tick run12 = .next (after .tick run12) := rfl

theorem witness_NodeStateMovesOnlyOnItsCauses : exec (.powerOn false) State.delivered = .next (after (.powerOn false) State.delivered) := rfl

theorem witness_StoreChangesOnlyByItsOwners :
    (run12.node = .off → run12.sup.save = none ∧ run12.sup.write = none) ∧ writesStore .tick = false ∧
    exec .tick run12 = .next (after .tick run12) := ⟨by decide +kernel, rfl, rfl⟩

/-- A state with a tick waiting. -/
def ticking (s : State) : State := { s with pending := [.tick] }

/-- Car 5's grant; and two approach records and two claims, each pair in order, one pair of equal times. -/
theorem witness_CollectionsInvariantKept :
    let r : ApproachRecord := { code := 0, lane := .l3, outcome := .straight, arrival := 201175, pace := ⟨20, false, false⟩,
                                window := ⟨201380, 201783⟩, bladeTime := 201400 }
    let c : Claim := { originator := 13, code := 0, lane := .l3, window := ⟨201845, 205260⟩ }
    let s := ((ticking granted).setApproach [r, r]).setClaims [c, { c with window := ⟨201846, 205260⟩ }]
    (collectionsKept (ticking granted) ∧ ∃ t, step (ticking granted) = .next t) ∧
    timesNear s ∧ listsOrdered s ∧ ∃ t, step s = .next t := by
  refine ⟨⟨by unfold collectionsKept; decide +kernel, _, rfl⟩, ⟨?_, ?_, ?_⟩, ?_, _, rfl⟩
  · unfold near; decide +kernel
  · unfold near; decide +kernel
  · intro r h
    have hs : ((ticking granted).setApproach []).line.send = .idle := by decide +kernel
    exact absurd (h.imp (fun h => hs.symm.trans h) (fun h => hs.symm.trans h)) (by simp)
  · unfold listsOrdered; decide +kernel

theorem witness_BindingsInvariantKept : bindingsKept (ticking bound5) ∧ ∃ t, step (ticking bound5) = .next t := by
  have hg : ∀ c : Car, (ticking bound5).bind.entries.get c =
      if c = 4 then { handset := some 4121, stamp := 3, origin := 20, kept := false, standing := .empty } else Binding.fresh := by
    decide +kernel
  refine ⟨⟨?_, ?_⟩, _, rfl⟩
  · intro c d h hc hd
    rw [hg] at hc hd
    split at hc <;> split at hd <;> simp_all [Binding.fresh]
  · intro c
    rw [hg]
    split <;> exact ⟨fun _ => rfl, fun _ _ h => nomatch h⟩

theorem witness_BladesInvariantKept : bladesKept (ticking committed) ∧ ∃ t, step (ticking committed) = .next t := by
  refine ⟨⟨by decide +kernel, fun l => ?_, fun f hf => ?_⟩, _, rfl⟩
  case refine_2 =>
    have hq : (ticking committed).line.queue = [] := by decide +kernel
    rw [hq] at hf; cases hf
  have hs : ∀ l, (ticking committed).grants.slots.get l = if l = .l2 then some { grant5 with state := .committed, frame := none } else none := by
    intro l; cases l <;> decide +kernel
  have hb : ∀ l, (ticking committed).blades.get l = if l = .l2 then
      { Blade.absent with state := .armed, throwAt := some 200595, releaseAt := some 200958 } else Blade.absent := by
    intro l; cases l <;> decide +kernel
  have hn : (ticking committed).node = .run := by decide +kernel
  have hl : (ticking committed).sup.load = .idle := by decide +kernel
  unfold bladeKept
  rw [hs, hb, hn, hl]
  split <;> simp [Blade.absent, grant5]

theorem witness_LineInvariantKept : lineKept (ticking granted) ∧ ∃ t, step (ticking granted) = .next t := by
  refine ⟨⟨?_, ?_, ?_, ?_, ?_⟩, _, rfl⟩
  · intro h; exact absurd h (by unfold silent; decide +kernel)
  all_goals decide +kernel

theorem witness_GatesInvariantKept : gatesKept (ticking stalled) ∧ ∃ t, step (ticking stalled) = .next t := by
  refine ⟨fun l => ?_, _, rfl⟩
  cases l <;> decide +kernel

/-- A gate that sends, one that sends with a notice waiting, and one of a node in FAULT that blanks to its end. -/
theorem witness_GatesInvariantKept_blanking :
    let n : Sending := { notice := { code := 5, handset := 4121 }, ends := 200003 }
    let at2 := fun (s : State) (g : Gate) => { s with gates := s.gates.set .l2 g }
    gatesKept (at2 stalled { stalled5 with sending := some n, blanking := some 200007 }) ∧
    gatesKept (at2 stalled { stalled5 with sending := some n, waiting := some n.notice, blanking := some 200007 }) ∧
    gatesKept (at2 (run12In .fault) { stalled5 with blanking := some 200003 }) := by
  refine ⟨fun l => ?_, fun l => ?_, fun l => ?_⟩ <;> cases l <;> decide +kernel

/-- An age of exactly 2^20 ticks; a time ahead; OFF; a state that ticks. -/
theorem witness_TickAdvancesTrackTime :
    0 ≤ Time.diff 100 1048676 ∧ Time.diff 100 1048676 = 1048576 ∧ Time.diff 101 100 < 0 ∧ State.delivered.node = .off ∧
    run12.node ≠ .off := by decide +kernel

/-- Stamps of every kind 2^20 ticks before the present are held there, and a cooling end that lies ahead stays. -/
theorem witness_TickAdvancesTrackTime_held :
    let s := { run12 with
      now := 1248576
      occ := { run12.occ with lastClose := run12.occ.lastClose.set .l2 (some 200000) }
      blades := (run12.blades.set .l2 { Blade.absent with state := .rest, coolingEnd := some 200000 }).set .l3
        { Blade.absent with state := .cooling, coolingEnd := some 1249000 } }
    let t := after .tick s
    t.occ.lastClose.get .l2 = some 200001 ∧ (t.blades.get .l2).coolingEnd = some 200001 ∧
    (t.blades.get .l3).coolingEnd = some 1249000 ∧ t.occ.down.lastHeard = some 200001 ∧ t.line.beacon = some 200001 := by
  decide +kernel

theorem witness_ProjectedTimesStandInOrder :
    180 ≤ 470 ∧ node12.guard ≤ 255 ∧ 16 ≤ node12.lead ∧ node12.lead ≤ 255 ∧ (32767 : Nat) ≤ 32767 := by decide +kernel

/-- Two windows that share one tick. -/
theorem witness_ConflictMeansASharedTick :
    let o : Time := 200000
    let v : Window := ⟨200655, 201783⟩
    let w : Window := ⟨201783, 205260⟩
    (∀ x ∈ [v.start, v.stop, w.start, w.stop], -1073741824 < Time.diff o x ∧ Time.diff o x < 1073741824) ∧
    v.ordered = true ∧ w.ordered = true := by
  refine ⟨?_, by decide +kernel⟩
  intro x hx
  simp only [List.mem_cons, List.not_mem_nil, or_false] at hx
  rcases hx with rfl | rfl | rfl | rfl <;> decide +kernel

theorem witness_LevelSettlesAndNoiseIsRejected :
    let s := { run12 with gates := PerLane.const Gate.off }
    (gateWorks s .l4 = true ∧ (s.gates.get .l4).level = none) ∧
    (gateWorks run12 .l4 = true ∧ (run12.gates.get .l4).blanking = none ∧ (run12.gates.get .l4).level = some false ∧
      (true ≠ false ∨ false = false)) ∧
    ({ stalled5 with blanking := some 200100 } : Gate).blanking.isSome = true ∧
    ({ stalled5 with blanking := some 200100 } : Gate).dropped = none := by decide +kernel

theorem witness_AcceptedEdgesMakeAPassage :
    (gateWorks run12 .l2 = true ∧ (run12.gates.get .l2).blanking = none ∧ (run12.gates.get .l2).level = some (!true) ∧
      (run12.gates.get .l2).state = .idle) ∧
    gateWorks crossed .l2 = true ∧ (crossed.gates.get .l2).blanking = none ∧ (crossed.gates.get .l2).level = some (!true) ∧
    (crossed.gates.get .l2).state = .open passage5 := by decide +kernel

theorem witness_EdgeInAStallNamesTheCar :
    gateWorks stalled .l2 = true ∧ (stalled.gates.get .l2).blanking = none ∧ (stalled.gates.get .l2).level = some (!false) ∧
    (stalled.gates.get .l2).state =
      .stall { first := 190000, last := 199990, code := .read 5, frames := 9 } (some { code := 5, frames := 9 }) (some 5) := by
  decide +kernel

/-- Code 5 at the ends of its classes. -/
theorem witness_CarCodeFrameIsRead :
    let mark (i : Nat) : Int := if (bitsOf (5 : CarCode) ++ bitsOf (~~~(5 : CarCode))).getD i false then 4 else 3
    (5 : CarCode) ≠ 0 ∧ (10 : Int) ≤ 14 ∧ (∀ i, i < 8 → (1 : Int) ≤ 3 ∧ (3 : Int) ≤ 3) ∧
    ∀ i, i < 8 → if (bitsOf (5 : CarCode) ++ bitsOf (~~~(5 : CarCode))).getD i false then 4 ≤ mark i ∧ mark i ≤ 6
      else 1 ≤ mark i ∧ mark i ≤ 3 := by decide +kernel

theorem witness_PassageCloseMakesItsRecord :
    let short := { crossed with gates := crossed.gates.set .l2 { crossed.gates.get .l2 with
      state := .open { passage5 with first := 199993 } } }
    let bare := { run12 with now := 200024, gates := run12.gates.set .l1 { run12.gates.get .l1 with
      state := .open { passage5 with code := .absent, frames := 0 }, gap := 24 } }
    ((short.gates.get .l2).state = .open { passage5 with first := 199993 } ∧ 24 ≤ (short.gates.get .l2).gap ∧
      Time.diff 199993 200000 < 8) ∧
    ((crossed.gates.get .l2).state = .open passage5 ∧ 24 ≤ (crossed.gates.get .l2).gap ∧
      8 ≤ Time.diff passage5.first passage5.last ∧ (crossed.node = .sync ∨ crossed.node = .run ∨ crossed.node = .fault) ∧
      crossed.occ.list.length < 23) ∧
    (bare.gates.get .l1).state = .open { passage5 with code := .absent, frames := 0 } ∧ 24 ≤ (bare.gates.get .l1).gap ∧
    (bare.node = .sync ∨ bare.node = .run) ∧ (bare.blades.get .l1).state = .absent ∧ bare.occ.list.length < 24 ∧
    arrived bare.now (Time.plus passage5.last 3125) = false := by decide +kernel

theorem witness_StallDeclarationHoldsTheLane :
    let s := { crossed with now := 208102 }
    (s.gates.get .l2).state = .open passage5 ∧ arrived s.now (Time.plus passage5.first 8192) = true ∧
    (s.node = .sync ∨ s.node = .run ∨ s.node = .fault) ∧ passage5.code = .read 5 ∧ s.node ≠ .fault ∧ s.line.queue.length < 7 := by
  decide +kernel

theorem witness_StallEndStopsTheEmitter :
    let s := { stalled with gates := stalled.gates.set .l2 { stalled5 with gap := 24 } }
    (s.gates.get .l2).isStalled = true ∧ 24 ≤ (s.gates.get .l2).gap ∧ s.node.live = true := by decide +kernel

theorem witness_EmitterFinishesItsNotices :
    let d : Sending := { notice := { code := 9, handset := 0 }, ends := 200000 }
    let sent := { stalled with gates := stalled.gates.set .l2 { stalled5 with sending := some d, blanking := some 200004 } }
    let more := { stalled with gates := stalled.gates.set .l2 { stalled5 with
      sending := some d, waiting := some d.notice, blanking := some 200004 } }
    let dark := { stalled with gates := stalled.gates.set .l2 { stalled5 with blanking := some 200000 } }
    ((sent.gates.get .l2).sending = some d ∧ arrived sent.now d.ends = true ∧ (sent.gates.get .l2).waiting = none) ∧
    ((more.gates.get .l2).sending = some d ∧ arrived more.now d.ends = true ∧ (more.gates.get .l2).waiting = some d.notice) ∧
    (dark.gates.get .l2).sending = none ∧ (dark.gates.get .l2).blanking = some 200000 ∧ arrived dark.now 200000 = true := by
  decide +kernel

/-- A run of four characters, one whose address is 65535, and levels that close none; a gap of 4 bit times joins, one of 5 does
not; a framed run that comes in with another length, and one begun before the port came on. -/
theorem witness_HandsetRunIsTested :
    handsetFrameOf (frame4121.take 4) = none ∧ handsetFrameOf (chars 255 255 0 0 255) = none ∧
    closedRun (onLine frame4121) = some { chars := frame4121, bits := 65 } ∧ closedRun (onLine frame4121 ++ [true]) = none ∧
    closedRun (true :: frame4121.flatMap SerialChar.levels ++ ones 4 ++ (frame4121.take 1).flatMap SerialChar.levels ++ ones 15) =
      some { chars := frame4121 ++ frame4121.take 1, bits := 79 } ∧
    closedRun (true :: frame4121.flatMap SerialChar.levels ++ ones 5 ++ (frame4121.take 1).flatMap SerialChar.levels ++ ones 15) =
      some { chars := frame4121.take 1, bits := 25 } ∧
    (frame4121 ≠ [] ∧ frame4121.all (·.stopOk) = true) ∧
    (100000 ≠ 625 * 65 / 4608 ∧ 100000 ≠ (625 * 65 + 4607) / 4608) ∧
    (∃ t, run12.sup.cameOn = some t ∧ Time.diff t 100008 < 9) ∧ (run12In .fault).node ≠ .sync ∧ (run12In .fault).node ≠ .run :=
  ⟨by decide +kernel, by decide +kernel, by decide +kernel, by decide +kernel, by decide +kernel, by decide +kernel,
    by decide +kernel, by decide +kernel, ⟨100000, by decide +kernel⟩, by decide +kernel⟩

/-- The frame of handset 4121 as it is read. -/
def read4121 : HandsetFrame :=
  { address := 4121, pressCount := 7, pressDir := .left, gesture := .none, programCount := 1, programDir := .right, programValue := 3 }

/-- Its run is heard whole. -/
theorem heard4121 (s : State) (h : s.node.live = true) (hw : runHeardWhole s 9 = true) :
    frameHeard s (onLine frame4121) 9 read4121 :=
  ⟨h, { chars := frame4121, bits := 65 }, by decide +kernel, by decide +kernel, hw, by decide +kernel⟩

/-- A table with room; and a full one, of which the entry of address 1 goes: none is bound, and all were heard in one tick. -/
theorem witness_FirstSightingEntersTheHandset :
    let full := { bound5 with handsets := (List.range 16).map (fun i => { h4121 with address := BitVec.ofNat 16 (i + 1) }) }
    (frameHeard run12 (onLine frame4121) 9 read4121 ∧ (∀ x ∈ run12.handsets, x.address ≠ read4121.address) ∧
      run12.handsets.length < 16) ∧
    frameHeard full (onLine frame4121) 9 read4121 ∧ (∀ x ∈ full.handsets, x.address ≠ read4121.address) ∧
    full.handsets.length = 16 ∧ (∃ x ∈ full.handsets, ∀ c, (full.bind.entries.get c).handset ≠ some x.address) ∧
    (after (.handsetFrame (onLine frame4121) 9) full).handsets.map (·.address) =
      (List.range 15).map (fun i => BitVec.ofNat 16 (i + 2)) ++ [4121] :=
  ⟨⟨heard4121 _ (by decide +kernel) (by decide +kernel), by decide +kernel, by decide +kernel⟩,
    heard4121 _ (by decide +kernel) (by decide +kernel), by decide +kernel, by decide +kernel, by decide +kernel,
    by decide +kernel⟩

theorem witness_KnownFrameTakesPressThenProgram :
    frameHeard bound5 (onLine frame4121) 9 read4121 ∧ h4121 ∈ bound5.handsets ∧ h4121.address = read4121.address ∧
    (∀ x ∈ bound5.handsets, x.address = read4121.address → x = h4121) ∧ h4121.freshGesture = read4121.gesture ∧
    ({ h4121 with gesture := .bind, fresh := true } : HandsetEntry).freshGesture ≠ read4121.gesture :=
  ⟨heard4121 _ (by decide +kernel) (by decide +kernel), by decide +kernel⟩

theorem witness_HandsetTimersRun :
    let stale := { run12 with handsets := [{ h4121 with lastHeard := 168750 }] }
    let held := { run12 with handsets := [{ h4121 with gesture := .bind, fresh := true, gestureTime := 198437 }] }
    (handsetEntry stale 4121 = some { h4121 with lastHeard := 168750 } ∧ stale.node.live = true ∧ isBound stale 4121 = false ∧
      arrived stale.now (Time.plus 168750 31250) = true ∧ h4121.freshGesture = .none) ∧
    handsetEntry held 4121 = some { h4121 with gesture := .bind, fresh := true, gestureTime := 198437 } ∧
    ({ h4121 with gesture := .bind, fresh := true } : HandsetEntry).freshGesture ≠ .none ∧
    arrived held.now (Time.plus 198437 1563) = true ∧ codedStalls held = [] := by decide +kernel

theorem witness_LatchedRequestExpires :
    let due := { bound5 with now := 262296 }
    let idle := { bound5 with handsets := [{ h4121 with request := none }] }
    (handsetEntry due 4121 = some h4121 ∧ h4121.request = some { dir := .right, count := 7, latched := 199800 } ∧
      arrived due.now (Time.plus 199800 (due.working.requestHold * 3906)) = true) ∧
    handsetEntry idle 4121 = some { h4121 with request := none } := by decide +kernel

/-- A BIND of car 5 at stamp 4. -/
def bindWire : List Bool := wireOf 1 .bind 9 (encodeBind { code := 5, handset := 5150, stamp := 4, origin := 31, kept := false })

/-- Its proposal. -/
def proposal4 : Proposal := { car := 4, handset := some 5150, stamp := 4, origin := 31, kept := false }

/-- Handset 4121 holding a gesture. -/
def holding (g : Gesture) : HandsetEntry := { h4121 with gesture := g, fresh := true, gestureTime := 199900 }

/-- A received BIND; and car 5 stalled alone, with no gesture, with BIND held already, with BIND_KEPT and with RELEASE, the last
two at a stamp that can rise and at one that cannot. -/
theorem witness_NewerProposalIsApplied :
    (∃ f, delivered bound5 bindWire .bind f ∧ (decodeBind (payloadWord 48 f.payload)).proposal = some proposal4) ∧
    (bound5.node.live = true ∧ (bound5.bind.entries.get 4).stamp.toNat < proposal4.stamp.toNat) ∧
    (stalled.handsets.filter (fun e => decide (e.freshGesture ≠ .none))).length ≠ 1 ∧
    (stalled.node.live = true ∧ Lane.all.filter (fun l => (stalled.gates.get l).codedStall.isSome) = [.l2] ∧
      (stalled.gates.get .l2).codedStall = some (Car.code 4)) ∧
    (∀ g ∈ [Gesture.bind, .bindKept, .release],
      [holding g].filter (fun e => decide (e.freshGesture ≠ .none)) = [holding g]) ∧
    ((stalled.bind.entries.get 4).handset = some (holding .bind).address ∧ (stalled.bind.entries.get 4).kept = false ∧
      (stalled.bind.entries.get 4).stamp.toNat < 65535) ∧
    (judgeLocal { stalled with handsets := [holding .bind] } = { stalled with handsets := [holding .bind] }) ∧
    (judgeLocal { stalled with handsets := [holding .bindKept] }).bind.entries.get 4 =
      { handset := some 4121, stamp := 4, origin := 12, kept := true, standing := .empty } ∧
    (judgeLocal { stalled with handsets := [holding .release] }).bind.entries.get 4 =
      { handset := none, stamp := 4, origin := 12, kept := false, standing := .empty } ∧
    ((65535 : BitVec 16).toNat = 65535 ∧ (12 : NodeAddr).toNat < (20 : NodeAddr).toNat) := by
  refine ⟨⟨frameOf bindWire, ?_⟩, ?_⟩
  · unfold delivered; decide +kernel
  · decide +kernel

/-- A BIND frees car 5 of handset 4121: the handset's entry goes where it was last heard 31250 ticks ago, and stays at one less. -/
theorem witness_NewerProposalIsApplied_stale :
    (∃ f, delivered { bound5 with handsets := [{ h4121 with lastHeard := 168750 }] } bindWire .bind f) ∧
    (after (.bindReceived bindWire 7) { bound5 with handsets := [{ h4121 with lastHeard := 168750 }] }).handsets = [] ∧
    (after (.bindReceived bindWire 7) { bound5 with handsets := [{ h4121 with lastHeard := 168751 }] }).handsets =
      [{ h4121 with lastHeard := 168751 }] := by
  refine ⟨⟨frameOf bindWire, ?_⟩, ?_⟩
  · unfold delivered; decide +kernel
  · decide +kernel

theorem witness_StampsNeverDecreaseOutsideLoad :
    exec .tick bound5 = .next (after .tick bound5) ∧ bound5.node ≠ .load ∧ bound5.node ≠ .off ∧ (after .tick bound5).node ≠ .off :=
  ⟨rfl, by decide +kernel⟩

theorem witness_HeatFreesUnkeptBindings :
    let pressed (s : State) : State := { s with sup := { s.sup with heatReleased := some 199844 } }
    (∃ f, delivered bound5 (wireOf 1 .heat 9 0#0) .heat f) ∧ bound5.node.live = true ∧
    ((pressed bound5).sup.heatReleased = some 199844 ∧ arrived (pressed bound5).now (Time.plus 199844 156) = true ∧
      (pressed bound5).node.live = true) ∧
    ((pressed (run12In .setup)).sup.heatReleased = some 199844 ∧ (pressed (run12In .setup)).node.live = false ∧
      (pressed (run12In .setup)).node ≠ .off) ∧
    bound5.sup.heatReleased = none ∧
    (bound5.handsets ≠ [] ∧ (after (.heatReceived (wireOf 1 .heat 9 0#0) 7) bound5).handsets =
      bound5.handsets.map (fun e => { e with request := none })) ∧
    (after (.heatReceived (wireOf 1 .heat 9 0#0) 7) { bound5 with handsets := [{ h4121 with lastHeard := 168750 }] }).handsets = [] := by
  refine ⟨⟨frameOf (wireOf 1 .heat 9 0#0), ?_⟩, ?_⟩
  · unfold delivered; decide +kernel
  · decide +kernel

/-- A JOIN of the downstream neighbour and one of another; a table with one entry to replay and one with five; and a frame that
leaves a queue of four at its deadline, and one sent, with a replay under way. -/
theorem witness_JoinStartsTheReplay :
    let five := { bound5 with bind := { bound5.bind with entries := CodeTable.ofFn (fun c =>
      { Binding.fresh with stamp := if c.val < 5 then 7 else 0 }) } }
    let four := { run12.setQueue [heat1, { heat1 with id := 1 }, { heat1 with id := 2 }, { heat1 with id := 3 }] with
      bind := { five.bind with cursor := some 4 } }
    let a : Attempt := { newAttempt 199980 0 heat1 with frame := heat1 }
    (∃ f, delivered bound5 (wireOf 2 .join 13 0#0) .join f ∧ f.originator = bound5.working.downstream ∧ f.originator ≠ 0) ∧
    (∃ f, delivered bound5 (wireOf 2 .join 11 0#0) .join f ∧ f.originator ≠ bound5.working.downstream) ∧
    (bound5.node.live = true ∧ (replayed bound5 0).bind.cursor = none ∧ (bound5.bind.entries.get 4).stamp ≠ 0) ∧
    ((replayed five 0).bind.cursor = some 4 ∧ (replayed five 0).line.queue.length = 4) ∧
    (four.line.queue[0]? = some heat1 ∧ heat1.isTaken = false ∧ arrived four.now heat1.deadline = true ∧
      four.bind.cursor = some 4 ∧ four.node.live = true) ∧
    ((after (.frameDeadline 0) four).bind.cursor = some 5 ∧ (after (.frameDeadline 0) four).line.queue.length = 4) ∧
    a.bits ≠ [] ∧ arrived 200000 (Time.plus a.start ((a.phase.toNat + (a.bits.length - 1)) / 8)) = true ∧
    (∃ f ∈ four.line.queue, f.id = a.frame.id) ∧ ∀ l, a.frame.owner ≠ .grantUnit l := by
  refine ⟨⟨frameOf (wireOf 2 .join 13 0#0), ?_⟩, ⟨frameOf (wireOf 2 .join 11 0#0), ?_⟩, by decide +kernel, by decide +kernel,
    by decide +kernel, by decide +kernel, by decide +kernel, by decide +kernel, by decide +kernel, fun l h => by cases h⟩
  all_goals unfold delivered; decide +kernel

/-- A run at its fortieth notice; car 9 on the gate of car 5's run, its second frame completed by a falling edge in the
tick of the run's notice; and a falling edge of such a tick that completes no frame, which is not taken. -/
theorem witness_NoticeRunRepeats :
    let s := stalled.setRun .l2 (some { car := 4, count := 39, nextAt := 200000 })
    let p : Passage := { first := 190000, last := 199998, code := .read 5, frames := 9 }
    let g := { stalled5 with
      decoder := .frame false [true, false, false, true, false, true, true], state := .stall p (some { code := 9, frames := 1 }) (some 5) }
    let tie := { (stalled.setRun .l2 (some { car := 4, count := 3, nextAt := 200000 })) with gates := stalled.gates.set .l2 g }
    (s.bind.runs.get .l2 = some { car := 4, count := 39, nextAt := 200000 } ∧ s.node.live = true ∧
      arrived s.now 200000 = true) ∧
    (tie.bind.runs.get .l2 = some { car := 4, count := 3, nextAt := 200000 } ∧ tie.node.live = true ∧
      gateWorks tie .l2 = true ∧ (tie.gates.get .l2).sending = none ∧ (tie.gates.get .l2).blanking = none ∧
      (tie.gates.get .l2).level = some (!false) ∧
      (tie.gates.get .l2).state = .stall p (some { code := 9, frames := 1 }) (some 5) ∧ (9 : CarCode) ≠ Car.code 4 ∧
      frameCode ((tie.gates.get .l2).decoder.edge false (Time.diff p.last tie.now)).2 = some 9 ∧
      ∀ e ∈ tie.handsets, e.freshGesture = .none) ∧
    (after (.irEdge .l2 false false) (after (.noticeRunRepeat .l2) tie)).bind.runs.get .l2 = none ∧
    ((s.gates.get .l2).sending = none ∧ (s.gates.get .l2).blanking = none ∧ (s.gates.get .l2).level = some (!false) ∧
      (s.gates.get .l2).isStalled = true ∧
      frameCode ((s.gates.get .l2).decoder.edge false (Time.diff 199990 s.now)).2 = none ∧
      after (.irEdge .l2 false false) (after (.noticeRunRepeat .l2) s) = after (.noticeRunRepeat .l2) s) := by
  decide +kernel

theorem witness_StoreWorkCompletes :
    let w : ConfigWrite := { since := 199687, block := block12 }
    let s := { setup with now := 200000, sup := { setup.sup with write := some w } }
    (heldUp.sup.save = some 230200 ∧ arrived 230575 (Time.plus 230200 375) = true) ∧
    s.sup.write = some w ∧ arrived s.now (Time.plus w.since 313) = true := by decide +kernel

theorem witness_SavedTableIsRestored :
    boundOnce bound5.bind.entries ∧ ∀ c, (bound5.bind.entries.get c).handset ≠ some 0 ∧
      (bound5.bind.entries.get c).handset ≠ some 65535 ∧ (bound5.bind.entries.get c).origin ≠ 0 :=
  ⟨witness_BindingsInvariantKept.1.1, by decide +kernel⟩

/-- The ends of windows that have just arrived, and places that hold no entry. -/
theorem witness_WindowsExpireAtTheirEnds :
    let p : OccupancyEntry := { code := 5, lane := .l2, kind := .passage, tRef := 200000, pace := ⟨60, false, false⟩,
                                start := 200655, stop := .at 201783, link := none }
    let r : ApproachRecord := { code := 14, lane := .l3, outcome := .straight, arrival := 201175, pace := ⟨20, false, false⟩,
                                window := ⟨201380, 201783⟩, bladeTime := 201400 }
    let s := ({ run12 with now := 201783 }.setOccupancy [p]).setApproach [r]
    (s.occ.list[0]? = some p ∧ p.stop = .at 201783 ∧ arrived s.now 201783 = true) ∧ s.occ.list[1]? = none ∧
    (s.occ.approach[0]? = some r ∧ arrived s.now r.window.stop = true) ∧ s.occ.approach[1]? = none := by
  decide +kernel

theorem witness_ClaimsHoldsAndSilence :
    let c : Claim := { originator := 13, code := 5, lane := .l3, window := ⟨240655, 241783⟩ }
    let p : OccupancyEntry := { code := 5, lane := .l2, kind := .passage, tRef := 200000, pace := ⟨60, false, false⟩,
                                start := 200655, stop := .at 201783, link := none }
    let o := { p with kind := .stall, stop := .open }
    let r : ApproachRecord := { code := 14, lane := .l3, outcome := .straight, arrival := 201175, pace := ⟨20, false, false⟩,
                                window := ⟨201380, 201783⟩, bladeTime := 201400 }
    let s := (((run12.setClaims [c]).setHold .l1 (some 205010)).setOccupancy [p, o]).setApproach [r]
    (s.grants.claims[0]? = some c ∧ s.occ.holds.get .l1 = some 205010) ∧
    (s.occ.list[0]? = some p ∧ arrived s.now 201783 = false ∧ s.occ.list[1]? = some o ∧ o.stop = .open) ∧
    (s.occ.approach[0]? = some r ∧ arrived s.now r.window.stop = false) ∧
    handsetEntry bound5 4121 = some h4121 ∧ h4121.request = some { dir := .right, count := 7, latched := 199800 } ∧
    arrived bound5.now (Time.plus 199800 (bound5.working.requestHold * 3906)) = false := by decide +kernel

/-- A list with room and a full one with one open end; a full approach list and a full claim table, of equal ends; each
earliest end is ahead; and the same list where the newcomer's car frees its place. -/
theorem witness_EvictionHoldsTheLane :
    let p : OccupancyEntry := { code := 3, lane := .l1, kind := .passage, tRef := 200000, pace := ⟨60, false, false⟩,
                                start := 200655, stop := .at 205010, link := none }
    let r : ApproachRecord := { code := 0, lane := .l3, outcome := .straight, arrival := 201175, pace := ⟨20, false, false⟩,
                                window := ⟨201380, 201783⟩, bladeTime := 201400 }
    let c : Claim := { originator := 13, code := 0, lane := .l3, window := ⟨240655, 241783⟩ }
    let s := run12.setOccupancy ({ p with kind := .stall, stop := .open } :: List.replicate 23 p)
    let kept (d : CarCode) := (List.replicate 16 r).filter (fun x : ApproachRecord => decide (d = 0 ∨ x.code ≠ d))
    let claims (d : CarCode) := (List.replicate 8 c).filter (fun x : Claim => decide (d = 0 ∨ x.code ≠ d))
    run12.occ.list.length < 24 ∧ s.occ.list.length = 24 ∧
    (∀ x ∈ s.occ.list, ∀ t, x.stop = .at t → -1073741824 < Time.diff s.now t ∧ Time.diff s.now t < 1073741824) ∧
    (Time.before s.now 205010 = true ∧ p.lane.num ≤ s.working.lanes) ∧
    ((kept 0).length = 16 ∧ (claims 0).length = 8 ∧ (kept 5).length = 16 ∧
      ((List.replicate 15 r ++ [{ r with code := 5 }]).filter (fun x : ApproachRecord => decide ((5 : CarCode) = 0 ∨ x.code ≠ 5))).length < 16) ∧
    (∀ x ∈ kept 0, -1073741824 < Time.diff run12.now x.window.stop ∧ Time.diff run12.now x.window.stop < 1073741824) ∧
    (∀ x ∈ claims 0, -1073741824 < Time.diff run12.now x.window.stop ∧ Time.diff run12.now x.window.stop < 1073741824) ∧
    Time.before run12.now r.window.stop = true ∧ Time.before run12.now c.window.stop = true := by
  refine ⟨by decide +kernel, by decide +kernel, ?_, by decide +kernel, by decide +kernel, by decide +kernel, by decide +kernel,
    by decide +kernel⟩
  intro x hx t ht
  simp only [State.setOccupancy, List.mem_cons, List.mem_replicate] at hx
  rcases hx with rfl | ⟨-, rfl⟩
  · cases ht
  · cases ht; decide +kernel

/-- A full queue: car 5's TAKEN frame, whose slot is PROVISIONAL, and seven HEAT frames. -/
def fullQueue : State :=
  { granted with line := { granted.line with
      queue := queued5 :: (List.range 7).map (fun i => { heat1 with id := i + 1, deadline := 207837, queued := 200024 })
      nextId := 8 } }

/-- A hand-in to it, which drops the first HEAT; and the invariants hold of it. 10: five PASS frames, one TAKEN, a live BIND and
two replayed BINDs drop the earlier replayed BIND for a new PASS, which enters sixth; and eight level-0 frames, a TAKEN the
earliest, drop the next. -/
theorem witness_EvictionHoldsTheLane_queue :
    let pass (i : Nat) (o : Outcome) : TxFrame :=
      { id := i, level := 0, originator := 12, body := .pass { taken2 with outcome := o }, deadline := 320000, queued := 311000 + i,
        owner := .planner }
    let bind (i : Nat) (level : BitVec 2) (queued : Time) : TxFrame :=
      { id := i, level := level, originator := 12, body := .bind { code := 5, handset := 4121, stamp := 3, origin := 20, kept := false },
        deadline := 320000, queued := queued, owner := .bindingTable }
    let ten (q : List TxFrame) : State := { (run12.setQueue q) with now := 312010 }
    let first := ten [pass 0 .taken, pass 1 .straight, pass 2 .straight, pass 3 .straight, pass 4 .straight, bind 5 1 311900,
      bind 6 2 312000, bind 7 2 312005]
    let second := ten (pass 0 .taken :: (List.range 7).map (fun i => pass (i + 1) .straight))
    (fullQueue.node = .run ∧ arrived fullQueue.now 207837 = false) ∧
    (lineKept fullQueue ∧ bladesKept fullQueue ∧ fullQueue.line.queue.length = 8) ∧
    (handIn fullQueue 0 (.pass taken2) 207837 .planner).line.queue.map (·.id) = [0, 8, 2, 3, 4, 5, 6, 7] ∧
    (handIn first 0 (.pass { taken2 with outcome := .straight }) 320000 .planner).line.queue.map (·.id) = [0, 1, 2, 3, 4, 0, 5, 7] ∧
    (handIn second 0 (.pass { taken2 with outcome := .straight }) 320000 .planner).line.queue.map (·.id) =
      [0, 2, 3, 4, 5, 6, 7, 0] := by
  have hs : ∀ l, fullQueue.grants.slots.get l = if l = .l2 then some grant5 else none := by intro l; cases l <;> decide +kernel
  have hb : ∀ l, fullQueue.blades.get l = if l = .l2 then { Blade.absent with state := .rest } else Blade.absent := by
    intro l; cases l <;> decide +kernel
  have hn : fullQueue.node = .run := by decide +kernel
  have hl : fullQueue.sup.load = .idle := by decide +kernel
  refine ⟨by decide +kernel, ⟨⟨?_, ?_⟩, ⟨by decide +kernel, fun l => ?_, fun f hf ht => ?_⟩, by decide +kernel⟩,
    by decide +kernel, by decide +kernel, by decide +kernel⟩
  · intro h; exact absurd h (by unfold silent; decide +kernel)
  · decide +kernel
  · unfold bladeKept
    rw [hs, hb, hn, hl]
    split <;> simp [Blade.absent, grant5]
  · have h0 : ∀ f ∈ fullQueue.line.queue, f.isTaken = true → f.id = 0 := by decide +kernel
    exact ⟨.l2, grant5, by rw [hs]; rfl, rfl, by rw [h0 f hf ht]; rfl⟩

/-- Car 5's grant at its throw time; and, taken under an order that ran out with it, it gives that order back (R74). -/
theorem witness_GrantEndsLate :
    let s := { granted with now := 200595 }
    let ordered := { (s.setSlot .l2 (some { grant5 with used := .order .right })).setBinding 4
      { handset := some 4121, stamp := 3, origin := 20, kept := false, standing := .runOut .right } with now := 200595 }
    (s.grants.slots.get .l2 = some grant5 ∧ grant5.state = .provisional ∧ arrived s.now grant5.throwAt = true ∧
      grant5.frame = some 0 ∧ 0 < s.line.nextId ∧ s.node = .run ∧
      (s.line.queue.filter (fun f => decide (f.id ≠ 0))).length < 8 ∧
      arrived s.now (Time.plus grant5.tRef 3125) = false) ∧
    ((after (.grantLate .l2) ordered).bind.entries.get 4).standing = .order .right 1 ∧
    ∃ f, s.line.queue[0]? = some f ∧ f.owner = .grantUnit .l2 ∧ f.isTaken = true ∧ grant5.frame = some f.id ∧
      f.deadline = grant5.throwAt := by
  refine ⟨by decide +kernel, by decide +kernel, queued5, ?_⟩
  decide +kernel

/-- Car 5's grant with nothing that it meets; and with an approach record of the target lane that shares its window's last
tick, against which it yields. -/
theorem witness_RecheckLeavesNoConflict :
    let r : ApproachRecord := { code := 14, lane := .l3, outcome := .straight, arrival := 201175, pace := ⟨20, false, false⟩,
                                window := ⟨201783, 202000⟩, bladeTime := 201900 }
    let met := granted.setApproach [r]
    (Lane.l2.num ≤ granted.working.lanes ∧ (recheck granted none).grants.slots.get .l2 = some grant5 ∧
      grant5.state = .provisional) ∧
    (granted.grants.slots.get .l2 = some grant5 ∧ ¬recheckMet granted .l2 grant5 ∧
      ∀ m, m ≠ .l2 → granted.grants.slots.get m = none) ∧
    (met.grants.slots.get .l2 = some grant5 ∧ recheckMet met .l2 grant5 ∧ Lane.l2.num ≤ met.working.lanes ∧
      (∀ m, m ≠ .l2 → met.grants.slots.get m = none) ∧ grant5.frame = some 0 ∧ 0 < met.line.nextId ∧ met.node = .run ∧
      (met.line.queue.filter (fun f => decide (f.id ≠ 0))).length < 8 ∧ arrived met.now (Time.plus grant5.tRef 3125) = false) := by
  have slots : ∀ m, m ≠ .l2 → granted.grants.slots.get m = none := by
    intro m hm; cases m <;> first | exact absurd rfl hm | decide +kernel
  have list : granted.occ.list = [
      { code := 5, lane := .l2, kind := .passage, tRef := 200000, pace := ⟨60, false, false⟩, start := 200655, stop := .at 201783,
        link := none },
      { code := 5, lane := .l3, kind := .target, tRef := 200000, pace := ⟨60, false, false⟩, start := 200655, stop := .at 201783,
        link := some .l2 }] := by decide +kernel
  have approach : granted.occ.approach = [] := by decide +kernel
  have heard : granted.occ.up.lastHeard = some 199000 := by decide +kernel
  have claims : granted.grants.claims = [] := by decide +kernel
  have now : granted.now = 200024 := by decide +kernel
  refine ⟨by decide +kernel, ⟨by decide +kernel, ?_, slots⟩, by decide +kernel, .inr (.inl (.inr ?_)), by decide +kernel, slots,
    by decide +kernel⟩
  · rintro (h | h | h | h)
    · rcases h with ⟨e, he, h⟩ | ⟨e, he, -⟩
      · rw [list] at he
        simp only [List.mem_cons, List.not_mem_nil, or_false] at he
        rcases he with rfl | rfl <;> simp [grant5] at h
      · rw [approach] at he; cases he
    · rcases h with ⟨e, he, h⟩ | ⟨e, he, -⟩
      · rw [list] at he
        simp only [List.mem_cons, List.not_mem_nil, or_false] at he
        rcases he with rfl | rfl <;> simp [grant5] at h
      · rw [approach] at he; cases he
    · obtain ⟨-, ⟨x, hx, h⟩, -⟩ := h
      rw [heard] at hx; cases hx
      rw [now] at h
      exact absurd h (by decide +kernel)
    · obtain ⟨-, c, hc, -⟩ := h
      rw [claims] at hc; cases hc
  · exact ⟨_, List.mem_singleton.2 rfl, rfl, by unfold overlap; decide +kernel⟩

/-- Both cases: node 11's STRAIGHT of car 14 in the target lane, and the same record of car 5 itself. 05: an abort gives back the
order that ran out with the grant. -/
theorem witness_CannotYieldRecordAbortsTheArmedGrant :
    let r : ApproachRecord := { code := 14, lane := .l3, outcome := .straight, arrival := 201175, pace := ⟨20, false, false⟩,
                                window := ⟨201380, 201783⟩, bladeTime := 201400 }
    let g := { grant5 with state := .committed, frame := none }
    let ordered := (committed.setSlot .l2 (some { g with used := .order .right })).setBinding 4
      { handset := some 4121, stamp := 3, origin := 20, kept := false, standing := .runOut .right }
    ((∀ m ∈ Lane.all, m ≠ .l2 → ordered.grants.slots.get m = none) ∧
      ((recheck ordered (some r)).bind.entries.get 4).standing = .order .right 1) ∧
    Lane.l2.num ≤ committed.working.lanes ∧ committed.grants.slots.get .l2 = some g ∧
    (committed.blades.get .l2).state = .armed ∧ r.lane = g.target ∧ r.window.conflicts g.window = true ∧ r.code ≠ g.code ∧
    { r with code := 5 }.code = g.code ∧ committed.node = .run ∧
    arrived committed.now (Time.plus g.tRef 3125) = false := by decide +kernel

/-- The same record: the notice tells the press and the offsets (13), has room made in a full queue (R156), and is not queued
at its deadline; and lane 1 is the one lane rechecked before lane 2. -/
theorem witness_CannotYieldRecordAbortsTheArmedGrant_notice :
    let r : ApproachRecord := { code := 14, lane := .l3, outcome := .straight, arrival := 201175, pace := ⟨20, false, false⟩,
                                window := ⟨201380, 201783⟩, bladeTime := 201400 }
    let told := (recheck committed (some r)).line.queue.head?.map (·.body)
    let full := { committed with line := { committed.line with
      queue := (List.range 8).map (fun i => { heat1 with id := i + 1, deadline := 207837, queued := 200024 }), nextId := 9 } }
    let late := { committed with now := 203125 }
    told = some (.pass { code := 5, laneIn := .l2, laneOut := .l2, outcome := .aborted, pressed := some 7, order := none,
                         tRef := 200000, pace := ⟨60, false, false⟩, startOffset := 655, endOffset := 1783 }) ∧
    ((recheck full (some r)).line.queue.map (·.id)) = [9, 2, 3, 4, 5, 6, 7, 8] ∧
    (arrived late.now (Time.plus 200000 3125) = true ∧ (recheck late (some r)).line.queue = []) ∧
    (Lane.all.filter (fun m => decide (m.num < Lane.l2.num))) = [.l1] := by decide +kernel

/-- Car 5's record. -/
def record5 : PassageRecord :=
  { lane := .l2, code := 5, tFirst := 199910, tRef := 200000, dwell := 90, pace := ⟨60, false, false⟩, kind := .normal,
    handover := 200024 }

/-- Car 5 behind a grant on an empty piece, with its press latched. -/
def behind (s : State) : State := { s with handsets := [h4121], occ := { s.occ with list := [], approach := [] } }

/-- Car 5, which asks for the right, shares a grant of lane 2 where no car or window is met and no lane is held. -/
theorem shares5 (s : State) (hb : s.bind.entries.get 4 = bound5.bind.entries.get 4)
    (hh : s.occ.holds = PerLane.const none) (hg : (s.gates.get .l3).state = .idle) (hu : s.occ.up.lastHeard = some 199000)
    (hn : arrived s.now (Time.plus 199000 15625) = false) :
    sharing (behind s) record5 .right .l3 ⟨200595, 200958⟩ := by
  refine ⟨⟨4121, ⟨.right, .press 7⟩, ⟨4, by decide +kernel, ?_, .inl ⟨h4121, _, rfl, rfl, rfl⟩⟩, rfl⟩, ?_, ?_, hg, ?_, ?_, ?_⟩
  · show (s.bind.entries.get 4).handset = some 4121
    rw [hb]; decide +kernel
  · show s.occ.holds.get .l2 = none
    rw [hh]; rfl
  · show s.occ.holds.get .l3 = none
    rw [hh]; rfl
  · rintro (⟨e, he, -⟩ | ⟨e, he, -⟩) <;> cases he
  · rintro (⟨e, he, -⟩ | ⟨e, he, -⟩) <;> cases he
  · rintro ⟨-, ⟨x, hx, h⟩, -⟩
    rw [show x = 199000 from (Option.some.inj (hu.symm.trans hx)).symm] at h
    exact Bool.false_ne_true (hn.symm.trans h)

/-- Car 5 taken; a record in SYNC; a stall; a second car 6, not bound, that meets the blade of car 5 at rest, armed and thrown,
at the first tick of its hold; car 5 itself behind its own grant, which shares; and a passage that closes. -/
theorem witness_TakenGrantIsSound :
    let s := { bound5 with now := 200024 }
    let r6 : PassageRecord := { record5 with code := 6, tRef := 199920 }
    let thrown := after (.bladeThrow .l2) { committed with now := 200595 }
    let sync : State := { s with node := .sync }
    (s.node.live = true ∧ (ladder s (candidate s record5)).2.outcome = .taken) ∧
    (sync.node.live = true ∧ sync.node = .sync) ∧ (s.node = .run ∧ { record5 with kind := .stalled }.kind = .stalled) ∧
    (record5.kind = .normal ∧ ∀ x side target hold, ¬bladeMeets s record5 x side target hold) ∧
    (bladeMeets granted r6 .rest .right .l3 ⟨200595, 200958⟩ ∧ ¬sharing granted r6 .right .l3 ⟨200595, 200958⟩) ∧
    (bladeMeets committed r6 .armed .right .l3 ⟨200595, 200958⟩ ∧ ¬sharing committed r6 .right .l3 ⟨200595, 200958⟩) ∧
    (bladeMeets thrown r6 .thrown .right .l3 ⟨200595, 200958⟩ ∧ ∀ h q, ¬asks thrown 6 h q) ∧
    (bladeMeets (behind granted) record5 .rest .right .l3 ⟨200595, 200958⟩ ∧
      sharing (behind granted) record5 .right .l3 ⟨200595, 200958⟩) ∧
    (bladeMeets (behind committed) record5 .armed .right .l3 ⟨200595, 200958⟩ ∧
      sharing (behind committed) record5 .right .l3 ⟨200595, 200958⟩) ∧
    (bladeMeets (behind thrown) record5 .thrown .right .l3 ⟨200595, 200958⟩ ∧
      ∃ h q, asks (behind thrown) 5 h q ∧ q.dir = .right) ∧
    (asks s 5 4121 ⟨.right, .press 7⟩ ∧ Lane.besideWithin s.working.lanes .l2 .right = some .l3) ∧
    (s.line.queue.length < 8 ∧ arrived s.now 200595 = false ∧ arrived s.now (Time.plus record5.tRef 3125) = false) ∧
    ((crossed.gates.get .l2).state = .open passage5 ∧ 24 ≤ (crossed.gates.get .l2).gap ∧
      8 ≤ Time.diff passage5.first passage5.last ∧ crossed.node.live = true) := by
  have unbound : ∀ s : State, s.bind.entries.get 5 = Binding.fresh → ∀ h q, ¬asks s 6 h q := by
    rintro s hs h q ⟨car, hc, hb, -⟩
    have : car = 5 := by
      have h6 : Car.ofCode 6 = some 5 := by decide +kernel
      rw [h6] at hc; exact (Option.some.inj hc).symm
    subst this
    rw [hs] at hb; cases hb
  have g6 : granted.bind.entries.get 5 = Binding.fresh := by decide +kernel
  have c6 : committed.bind.entries.get 5 = Binding.fresh := by decide +kernel
  have t6 : (after (.bladeThrow .l2) { committed with now := 200595 }).bind.entries.get 5 = Binding.fresh := by decide +kernel
  have rest : ({ bound5 with now := 200024 } : State).blades.get .l2 = { Blade.absent with state := .rest } := by decide +kernel
  have free : ({ bound5 with now := 200024 } : State).grants.slots.get .l2 = none := by decide +kernel
  have slot : granted.grants.slots.get .l2 = some grant5 := by decide +kernel
  refine ⟨by decide +kernel, by decide +kernel, by decide +kernel, ⟨by decide +kernel, ?_⟩,
    ⟨⟨by decide +kernel, by decide +kernel, by decide +kernel, .inr ⟨by decide +kernel, grant5, slot, by decide +kernel⟩,
      by unfold within; decide +kernel⟩, fun h => ?_⟩,
    ⟨⟨by decide +kernel, by decide +kernel, by decide +kernel, .inl (by decide +kernel), by unfold within; decide +kernel⟩,
      fun h => ?_⟩,
    ⟨⟨by decide +kernel, by decide +kernel, by decide +kernel, .inl (by decide +kernel), by unfold within; decide +kernel⟩,
      unbound _ t6⟩,
    ⟨⟨by decide +kernel, by decide +kernel, by decide +kernel, .inr ⟨by decide +kernel, grant5, slot, by decide +kernel⟩,
      by unfold within; decide +kernel⟩, shares5 _ (by decide +kernel) (by decide +kernel) (by decide +kernel) (by decide +kernel) (by decide +kernel)⟩,
    ⟨⟨by decide +kernel, by decide +kernel, by decide +kernel, .inl (by decide +kernel), by unfold within; decide +kernel⟩,
      shares5 _ (by decide +kernel) (by decide +kernel) (by decide +kernel) (by decide +kernel) (by decide +kernel)⟩,
    ⟨⟨by decide +kernel, by decide +kernel, by decide +kernel, .inl (by decide +kernel), by unfold within; decide +kernel⟩,
      (shares5 _ (by decide +kernel) (by decide +kernel) (by decide +kernel) (by decide +kernel) (by decide +kernel)).1⟩,
    ⟨⟨4, by decide +kernel, by decide +kernel, .inl ⟨h4121, _, ?_, rfl, rfl⟩⟩, by decide +kernel⟩, by decide +kernel, by decide +kernel⟩
  · rintro x side target hold ⟨-, -, hx, h, -⟩
    have hl : record5.lane = .l2 := rfl
    rw [hl, rest] at hx
    rw [hl, free] at h
    rcases h with ⟨h, -⟩ | ⟨-, g, hg, -⟩
    · rcases h with rfl | rfl <;> cases hx
    · cases hg
  · obtain ⟨⟨h', q, hq, -⟩, -⟩ := h; exact unbound _ g6 _ _ hq
  · obtain ⟨⟨h', q, hq, -⟩, -⟩ := h; exact unbound _ c6 _ _ hq
  · decide +kernel

theorem witness_BladeThrowsReleasesAndCools :
    let armed := { committed with now := 200595 }
    let thrown := after (.bladeThrow .l2) armed
    let cooling := run12.setBlade .l2 { Blade.absent with state := .cooling, coolingEnd := some 200000 }
    ((armed.blades.get .l2).state = .armed ∧ (armed.blades.get .l2).throwAt = some 200595 ∧ arrived armed.now 200595 = true ∧
      armed.node = .run) ∧
    ((thrown.blades.get .l2).state = .thrown ∧ (thrown.blades.get .l2).releaseAt = some 200958 ∧ arrived 200958 200958 = true) ∧
    ((cooling.blades.get .l2).state = .cooling ∧ (cooling.blades.get .l2).coolingEnd = some 200000 ∧
      arrived cooling.now 200000 = true) ∧
    (thrown.blades.get .l2).drivenSince = some 200595 ∧ arrived 200600 (Time.plus 200595 5) = true ∧
    arrived 200599 (Time.plus 200595 5) = false := by decide +kernel

theorem witness_CoilPulsesSetTheBlades :
    let rest := { load12 with now := 485, sup := { load12.sup with load := .rest .l2 477 } }
    let pulse := { load12 with now := 477, sup := { load12.sup with load := .pulse .l1 469, mirror := { load12.sup.mirror with working :=
      { node12 with sides := ⟨some .right, some .right, none, none⟩ } } } }
    (rest.sup.load = .rest .l2 477 ∧ rest.node = .load ∧ arrived rest.now (Time.plus 477 8) = true) ∧
    (pulse.sup.load = .pulse .l1 469 ∧ pulse.node = .load ∧ arrived pulse.now (Time.plus 469 8) = true ∧
      nextTested pulse.working Lane.l1.num = some .l2) ∧
    nextTested pulse.working Lane.l2.num = none := by decide +kernel

/-- The shortest frame, and the longest. -/
theorem witness_FrameOnTheWireIsReadBack :
    ([] : List Bool).length = 8 * FrameKind.heat.length ∧ FrameKind.heat.allows (1 : BitVec 2).toNat = true ∧
    (ones 136).length = 8 * FrameKind.cfgw.length ∧ FrameKind.cfgw.allows (3 : BitVec 2).toNat = true := by decide +kernel

/-- Every value at the top of its range. -/
theorem witness_PayloadsAreReadBack :
    let p : PassBody := { taken2 with
      pace := ⟨4095, true, true⟩, startOffset := 32767, endOffset := 32767, order := some { dir := .right, remaining := 7 } }
    65535 < 65536 ∧ p.pace.ticks < 4096 ∧ p.startOffset < 32768 ∧ p.endOffset < 32768 ∧
    (∀ o, p.order = some o → o.remaining < 8) ∧ 1023 < 1024 ∧ 7 < 8 :=
  ⟨by decide, by decide, by decide, by decide, fun _ h => by cases h; decide, by decide, by decide⟩

/-- The attempt of car 5's TAKEN. -/
def attempt5 : State := after (.attemptStart 0) { granted with now := 200046 }

theorem witness_AttemptStartsLosesAndFaults :
    (∃ f, granted.line.queue = [f]) ∧ granted.line.send = .idle ∧ granted.line.state = .ready ∧
    (granted.node = .setup ∨ granted.node = .sync ∨ granted.node = .run) ∧
    ∃ a, attempt5.line.send = .sending a ∧ a.bits[10]? = some true ∧ a.bits[0]? = some false ∧ a.bits[9]? = some true ∧
      a.bits[14]? = some false ∧ arrived 200047 (Time.plus a.start ((a.phase.toNat + 14) / 8)) = true := by
  refine ⟨⟨queued5, ?_⟩, ?_, ?_, ?_,
    newAttempt 200046 0 queued5, ?_⟩
  all_goals decide +kernel

theorem witness_LowerHeaderWins :
    (0 : BitVec 2).toNat * 1024 + FrameKind.pass.number.toNat * 64 + (12 : NodeAddr).toNat <
      (0 : BitVec 2).toNat * 1024 + FrameKind.pass.number.toNat * 64 + (13 : NodeAddr).toNat := by decide

/-- The send of the TAKEN frame whose slot is PROVISIONAL, and of one whose slot is free. -/
theorem witness_CompleteSendReportsToTheOwner :
    ∃ a, attempt5.line.send = .sending a ∧ a.bits ≠ [] ∧ attempt5.bind.cursor = none ∧
      arrived 200061 (Time.plus a.start ((a.phase.toNat + (a.bits.length - 1)) / 8)) = true ∧ a.frame.owner = .grantUnit .l2 ∧
      attempt5.grants.slots.get .l2 = some grant5 ∧ grant5.frame = some a.frame.id ∧ (attempt5.blades.get .l2).state = .rest ∧
      attempt5.node = .run ∧ (attempt5.setSlot .l2 none).grants.slots.get .l2 = none := by
  refine ⟨newAttempt 200046 0 queued5, ?_⟩
  decide +kernel

/-- The same send with the replay at car 5: the slot commits, and the BIND of car 5 stands in the queue that the TAKEN leaves. -/
theorem witness_CompleteSendReportsToTheOwner_replay :
    let s := { attempt5 with now := 200061, bind := { attempt5.bind with cursor := some 4 } }
    (∃ a, s.line.send = .sending a ∧ a.bits ≠ [] ∧ s.node.live = true ∧ a.frame.owner = .grantUnit .l2 ∧
      arrived s.now (Time.plus a.start ((a.phase.toNat + (a.bits.length - 1)) / 8)) = true) ∧
    s.grants.slots.get .l2 = some grant5 ∧ (s.blades.get .l2).state = .rest ∧ s.node = .run ∧
    (after .attemptComplete s).grants.slots.get .l2 = some { grant5 with state := .committed, frame := none } ∧
    (after .attemptComplete s).line.queue.map (·.body.kind) = [.bind] ∧ (after .attemptComplete s).bind.cursor = none := by
  refine ⟨⟨newAttempt 200046 0 queued5, ?_⟩, ?_⟩
  all_goals decide +kernel

/-- A deadline at its tick; and a BEACON due with none held, with an older one before a HEAT, and with a queue full of others. -/
theorem witness_DeadlineAndBeaconTimer :
    let s := { run12.setQueue [heat1] with now := 200000 }
    let due := { run12 with now := 202906 }
    let old := due.setQueue [heat1, { heat1 with id := heat1.id + 1, level := 3, body := .beacon 180 220 4 }]
    (s.line.queue[0]? = some heat1 ∧ heat1.isTaken = false ∧ arrived s.now heat1.deadline = true ∧ s.bind.cursor = none) ∧
    arrived 199999 heat1.deadline = false ∧
    due.line.beacon = some 199000 ∧ due.node.live = true ∧ arrived due.now (Time.plus 199000 3906) = true ∧
    due.bind.cursor = none ∧ (due.line.queue.filter (fun x => !x.isBeacon)).length < 8 ∧ (due.line.queue.filter TxFrame.isBeacon).length ≤ 1 ∧
    (old.line.queue.filter TxFrame.isBeacon).length = 1 ∧ old.line.queue.Pairwise (fun a b => a.id ≠ b.id) ∧
    (after .beaconTimer old).line.queue.map (·.level) = [1, 3] ∧
    ((due.setQueue fullQueue.line.queue).line.queue.filter TxFrame.isBeacon).length = 0 ∧
    fullQueue.line.queue.Pairwise (fun a b => a.id ≠ b.id) := by decide +kernel

/-- One bit before READY; the start bit of another station's frame, its first bits, and its bits to one before its end. -/
theorem witness_LineIdlesAndDiscards :
    let s := { run12 with line := { run12.line with state := .waitIdle 9 } }
    let bits := wireOf 1 .heat 11 0#0
    let hearing := { run12 with line := { run12.line with state := .frame, send := .hearing [false] } }
    (s.node.listens = true ∧ s.line.state = .waitIdle 9 ∧ 9 < 10 ∧ 9 + 0 < 10) ∧
    (run12.line.state = .ready ∧ runsOn 1 (false :: bits.tail.dropLast)) ∧
    (hearing.node.listens = true ∧ hearing.line.state = .frame ∧ hearing.line.send = .hearing [false] ∧
      runsOn 1 ([false] ++ bits.tail.dropLast) ∧ [false] <+: bits) ∧
    frameEnd bits.tail ≠ .notAnEnd ∧
    readsFrame run12 (bits.dropLast ++ [!bits.getLast!]) = true ∧ endsBad (bits.dropLast ++ [!bits.getLast!]) = true := by
  have on : runsOn 1 ([false] ++ (wireOf 1 .heat 11 0#0).tail.dropLast) := by
    have h : ∀ k ∈ List.range 30, 1 ≤ k → k ≤ ([false] ++ (wireOf 1 .heat 11 0#0).tail.dropLast).length →
        frameEnd (([false] ++ (wireOf 1 .heat 11 0#0).tail.dropLast).take k).tail = .notAnEnd := by decide +kernel
    have hl : ([false] ++ (wireOf 1 .heat 11 0#0).tail.dropLast).length < 30 := by decide +kernel
    exact fun k h1 h2 => h k (List.mem_range.2 (by omega)) h1 h2
  exact ⟨by decide +kernel, ⟨by decide +kernel, on⟩, ⟨by decide +kernel, by decide +kernel, by decide +kernel, on, by decide +kernel⟩,
    by decide +kernel, by decide +kernel, by decide +kernel⟩

theorem witness_NeighbourNoticesAreKept :
    let up := passWire 11 straight14 200100
    let down := passWire 13 taken2 200018
    (∃ f p, delivered run12 up .pass f ∧ run12.node.watching = true ∧ p = decodePass (payloadWord 88 f.payload) ∧
      p.outcome = some .straight ∧ f.originator = run12.working.upstream ∧ f.originator ≠ 0 ∧ run12.working.gu ≠ 0 ∧
      p.laneOut.num ≤ run12.working.lanes ∧ p.code ≠ 0) ∧
    ∃ f p, delivered run12 down .pass f ∧ run12.node.live = true ∧ p = decodePass (payloadWord 88 f.payload) ∧
      p.outcome = some .taken ∧ f.originator = run12.working.downstream ∧ f.originator ≠ 0 ∧ run12.working.gd ≠ 0 ∧
      p.laneOut.num ≤ run12.working.lanes ∧ p.code ≠ 0 := by
  refine ⟨⟨frameOf (passWire 11 straight14 200100),
    decodePass (payloadWord 88 (frameOf (passWire 11 straight14 200100)).payload), ?_⟩,
    frameOf (passWire 13 taken2 200018),
    decodePass (payloadWord 88 (frameOf (passWire 13 taken2 200018)).payload), ?_⟩
  all_goals unfold delivered; decide +kernel

/-- Node 11's STRAIGHT of car 14 in FAULT, and in RUN, where it ends car 5's PROVISIONAL grant. -/
theorem witness_NeighbourNoticesAreKept_recheck :
    let up := passWire 11 straight14 200100
    let meets := { granted with line := { granted.line with state := .ready } }
    (∃ f, delivered (run12In .fault) up .pass f ∧ (run12In .fault).node.watching = true ∧
      (decodePass (payloadWord 88 f.payload)).outcome = some .straight ∧ f.originator = run12.working.upstream) ∧
    (granted.grants.slots.get .l2).isSome = true ∧
    (after (.passReceived up 7) meets).grants.slots.get .l2 = none := by
  refine ⟨⟨frameOf (passWire 11 straight14 200100), ?_⟩, by decide +kernel⟩
  unfold delivered; decide +kernel

/-- Node 13's ABORTED of car 2, and its STRAIGHT. -/
theorem witness_NeighbourNoticesAreKept_removal :
    let aborted := passWire 13 { taken2 with outcome := .aborted, laneOut := .l2 } 200018
    let straight := passWire 13 { taken2 with outcome := .straight, laneOut := .l2 } 200018
    let s := run12.setClaims [{ originator := 13, code := 2, lane := .l3, window := ⟨201845, 205260⟩ }]
    (∃ f p, delivered s aborted .pass f ∧ p = decodePass (payloadWord 88 f.payload) ∧ p.outcome = some .aborted ∧
      f.originator = s.working.downstream ∧ f.originator ≠ 0 ∧ s.working.gd ≠ 0 ∧ s.node.live = true) ∧
    (∃ f p, delivered s straight .pass f ∧ p = decodePass (payloadWord 88 f.payload) ∧ p.outcome = some .straight ∧
      f.originator = s.working.downstream) ∧
    (after (.passReceived aborted 7) s).grants.claims = [] ∧ (after (.passReceived straight 7) s).grants.claims.length = 1 := by
  refine ⟨⟨frameOf (passWire 13 { taken2 with outcome := .aborted, laneOut := .l2 } 200018), _, ?_, rfl, ?_⟩,
    ⟨frameOf (passWire 13 { taken2 with outcome := .straight, laneOut := .l2 } 200018), _, ?_, rfl, ?_⟩, by decide +kernel⟩
  all_goals first | (unfold delivered; decide +kernel) | decide +kernel

/-- Node 9's PASS of car 5, with press count 7 consumed. -/
def pass9 : List Bool := passWire 9 { taken2 with code := 5, pressed := some 7 } 200018

/-- Node 13's PASS of the same, which no grant of car 5 stands in the way of: it consumes the press. -/
theorem witness_PassConsumesAndCounts_neighbour :
    let pass13 := passWire 13 { taken2 with code := 5, pressed := some 7, order := some { dir := .right, remaining := 0 } } 200018
    let s := bound5.setBinding 4 { handset := some 4121, stamp := 3, origin := 20, kept := false, standing := .order .right 1 }
    (∃ f, delivered s pass13 .pass f ∧ s.node.live = true ∧ (decodePass (payloadWord 88 f.payload)).outcome = some .taken ∧
      f.originator = s.working.downstream) ∧
    (∀ l, s.grants.slots.get l = none) ∧
    (after (.passReceived pass13 7) s).handsets.map (·.request) = [none] ∧
    ((after (.passReceived pass13 7) s).bind.entries.get 4).standing = .runOut .right := by
  refine ⟨⟨frameOf (passWire 13 { taken2 with code := 5, pressed := some 7, order := some { dir := .right, remaining := 0 } } 200018),
    ?_⟩, fun l => by cases l <;> decide +kernel, by decide +kernel, by decide +kernel⟩
  unfold delivered; decide +kernel

theorem witness_PassConsumesAndCounts :
    ∃ f p, delivered bound5 pass9 .pass f ∧ bound5.node.live = true ∧ p = decodePass (payloadWord 88 f.payload) ∧
      f.originator ≠ bound5.working.upstream ∧ f.originator ≠ bound5.working.downstream ∧
      f.originator ≠ bound5.occ.up.address ∧ f.originator ≠ bound5.occ.down.address ∧ p.outcome = some .taken := by
  refine ⟨frameOf pass9, decodePass (payloadWord 88 (frameOf pass9).payload), ?_⟩
  unfold delivered; decide +kernel

/-- A PASS with outcome code 18 is a good frame. -/
theorem witness_PassConsumesAndCounts_noOutcome :
    let bits := wireOf 0 .pass 9 (18#88 <<< 75)
    ∃ f, delivered bound5 bits .pass f ∧ (decodePass (payloadWord 88 f.payload)).outcome = none := by
  refine ⟨frameOf (wireOf 0 .pass 9 (18#88 <<< 75)), ?_⟩
  unfold delivered; decide +kernel

/-- The same from neighbour 11, in RUN and in FAULT: its record alone takes the time. -/
theorem witness_PassConsumesAndCounts_noOutcomeHeard :
    let bits := wireOf 0 .pass 11 (18#88 <<< 75)
    (∃ f, delivered bound5 bits .pass f ∧ bound5.node.watching = true ∧ (decodePass (payloadWord 88 f.payload)).outcome = none) ∧
    (∃ f, delivered (run12In .fault) bits .pass f ∧ (run12In .fault).node.watching = true) ∧
    (after (.passReceived bits 7) bound5).occ = { bound5.occ with up := { bound5.occ.up with lastHeard := some 200000 } } := by
  refine ⟨⟨frameOf (wireOf 0 .pass 11 (18#88 <<< 75)), ?_⟩, ⟨frameOf (wireOf 0 .pass 11 (18#88 <<< 75)), ?_⟩, by decide +kernel⟩
  all_goals unfold delivered; decide +kernel

theorem witness_BeaconAndCfgdRefreshNeighbours :
    (∃ f, delivered run12 (wireOf 3 .beacon 11 (encodeBeacon 40 1023 4)) .beacon f) ∧ run12.node.watching = true ∧
    ∃ f, delivered run12 (wireOf 3 .cfgd 11 (encodeBlock block12)) .cfgd f := by
  refine ⟨⟨frameOf (wireOf 3 .beacon 11 (encodeBeacon 40 1023 4)), ?_⟩, by decide +kernel,
    frameOf (wireOf 3 .cfgd 11 (encodeBlock block12)), ?_⟩
  all_goals unfold delivered; decide +kernel

/-- A JOIN read in FAULT, and a BEACON, a CFGD and a PASS read in SETUP. -/
theorem witness_BeaconAndCfgdRefreshNeighbours_others :
    (∃ f, delivered (run12In .fault) (wireOf 2 .join 11 0#0) .join f) ∧ (run12In .fault).node = .fault ∧
    (∃ f, delivered setup (wireOf 3 .beacon 11 (encodeBeacon 40 1023 4)) .beacon f) ∧
    (∃ f, delivered setup (wireOf 3 .cfgd 11 (encodeBlock block12)) .cfgd f) ∧
    (∃ f, delivered setup (passWire 11 straight14 200100) .pass f) ∧ setup.node = .setup := by
  refine ⟨⟨frameOf (wireOf 2 .join 11 0#0), ?_⟩, by decide +kernel, ⟨frameOf (wireOf 3 .beacon 11 (encodeBeacon 40 1023 4)), ?_⟩,
    ⟨frameOf (wireOf 3 .cfgd 11 (encodeBlock block12)), ?_⟩, ⟨frameOf (passWire 11 straight14 200100), ?_⟩, by decide +kernel⟩
  all_goals unfold delivered; decide +kernel

theorem witness_SetupFramesOfTheTool :
    (∃ f, delivered setup (wireOf 3 .cfgr 63 0#8) .cfgr f ∧ setup.node = .setup ∧ f.originator = 63 ∧
      (payloadWord 8 (f.payload.take 8)).toNat = setup.sup.setupAddress.toNat) ∧
    (∃ f, delivered setup (wireOf 3 .cfgw 63 (0#8 ++ encodeBlock block12)) .cfgw f ∧ f.originator = 63 ∧
      (payloadWord 8 (f.payload.take 8)).toNat = setup.sup.setupAddress.toNat) ∧
    (∃ f, delivered setup (wireOf 3 .cfgx 63 0#8) .cfgx f ∧ f.originator = 63 ∧
      (payloadWord 8 (f.payload.take 8)).toNat = setup.sup.setupAddress.toNat) ∧
    setup.sup.nvBusy = false ∧ setup.pins.trackPower = true ∧ setup.pins.resetHeld = false ∧ setup.sup.save = none ∧
    setup.sup.write = none := by
  refine ⟨⟨frameOf (wireOf 3 .cfgr 63 0#8), ?_⟩,
    ⟨frameOf (wireOf 3 .cfgw 63 (0#8 ++ encodeBlock block12)), ?_⟩, ⟨frameOf (wireOf 3 .cfgx 63 0#8), ?_⟩,
    by decide +kernel⟩
  all_goals unfold delivered; decide +kernel

/-- A CFGR of another target, a CFGX of station 62, and a CFGW of the tool in RUN. -/
theorem witness_SetupFramesOfTheTool_others :
    (∃ f, delivered setup (wireOf 3 .cfgr 63 1#8) .cfgr f ∧
      (payloadWord 8 (f.payload.take 8)).toNat ≠ setup.sup.setupAddress.toNat) ∧
    (∃ f, delivered setup (wireOf 3 .cfgx 62 0#8) .cfgx f ∧ f.originator ≠ 63) ∧
    ∃ f, delivered run12 (wireOf 3 .cfgw 63 (0#8 ++ encodeBlock block12)) .cfgw f ∧ run12.node ≠ .setup := by
  refine ⟨⟨frameOf (wireOf 3 .cfgr 63 1#8), ?_⟩, ⟨frameOf (wireOf 3 .cfgx 62 0#8), ?_⟩,
    frameOf (wireOf 3 .cfgw 63 (0#8 ++ encodeBlock block12)), ?_⟩
  all_goals unfold delivered; decide +kernel

/-- A BEACON that bears node 12's own address. -/
theorem witness_AddressClashEntersFault :
    ∃ f, readsFrame run12 (wireOf 3 .beacon 12 (encodeBeacon 180 220 4)) = true ∧
      goodFrame (wireOf 3 .beacon 12 (encodeBeacon 180 220 4)) = some f ∧ f.kind = .beacon ∧
      (run12.node = .sync ∨ run12.node = .run) ∧ f.originator = run12.working.address := by
  refine ⟨frameOf (wireOf 3 .beacon 12 (encodeBeacon 180 220 4)), ?_⟩
  decide +kernel

/-- The clash at a gate that blanks after its last mark, and at one that sends: the first blanks on to its end. -/
theorem witness_AddressClashEntersFault_blanking :
    let clash := fun (g : Gate) =>
      (after (.beaconReceived (wireOf 3 .beacon 12 (encodeBeacon 180 220 4)) 7) { run12 with gates := run12.gates.set .l2 g }).gates.get .l2
    let n : Sending := { notice := { code := 5, handset := 4121 }, ends := 200003 }
    clash { stalled5 with blanking := some 200003 } = { stalled5 with blanking := some 200003 } ∧
    clash { stalled5 with sending := some n, blanking := some 200007 } = stalled5 := by decide +kernel

theorem witness_PowerOnAndResetEnterLoad :
    (State.delivered.node = .off ∧ State.delivered.sup.save = none ∧ State.delivered.sup.write = none) ∧
    (run12.node ≠ .off ∧ run12.pins.trackPower = true ∧ run12.sup.save = none ∧ run12.sup.write = none) ∧
    (after .resetAssert run12).node = .load ∧ (after .resetAssert run12).sup.load = .heldInReset := by decide +kernel

theorem witness_LoadReadJudgesTheBlock :
    let bad := { State.reset with now := 469 }
    let good := { load12 with now := 469 }
    let f : BitVec 120 := (12#6 ++ 11#6 ++ 13#6 ++ 4#3 ++ 0#8 ++ 24#6 ++ 180#10 ++ 220#10 ++ 70#8 ++ 1500#13 ++ 900#13 ++
      20#8 ++ 80#8 ++ 16#6 ++ 4#5 ++ 0#4)
    let plain := { good with nv := { good.nv with block := { fields := f, check := checkByte f } } }
    (bad.sup.load = .reading 0 ∧ bad.node = .load ∧ arrived bad.now (Time.plus 0 469) = true ∧
      bad.nv.block.valid bad.nv.writeMark = false) ∧
    (good.sup.load = .reading 0 ∧ good.node = .load ∧ good.nv.block.valid good.nv.writeMark = true ∧
      nextTested (readFields good.nv.block.fields).working 0 = some .l2) ∧
    plain.sup.load = .reading 0 ∧ plain.nv.block.valid plain.nv.writeMark = true ∧ plain.handsets = [] ∧
    nextTested (readFields plain.nv.block.fields).working 0 = none ∧
    (block12.valid 0 = true ∧ block12.valid 1 = false ∧ block12.fields.toNat / 2 ^ 114 % 2 ^ 6 = 12) := by decide +kernel

/-- Loss and return of power; at the restart a bound entry stays at the age at which an unbound one goes. -/
theorem witness_HoldupAndWarmRestart :
    let aged (a : HandsetAddr) : HandsetEntry := { h4121 with address := a, lastHeard := 201750 }
    let back := after .trackPowerReturn { heldUp with now := 230656 }
    (run12.node = .sync ∨ run12.node = .run) ∧ (heldUp.node = .holdup ∧ heldUp.sup.debounce = none) ∧
    back.node = .holdup ∧ back.sup.debounce = some 230656 ∧ arrived 233000 (Time.plus 230656 2344) = true ∧
    (run12In .sync).node = .sync ∧ (run12In .sync).sup.cameOn = some 100000 ∧ arrived 200000 (Time.plus 100000 7813) = true ∧
    (after .debounceComplete { back with now := 233000, handsets := [aged 4121, aged 7] }).handsets =
      [{ aged 4121 with resync := true }] := by
  decide +kernel

theorem witness_OffKeepsOnlyTheStore :
    heldUp.node = .holdup ∧ run12.node ≠ .off ∧ (load12.node = .load ∨ load12.node = .setup ∨ load12.node = .fault) ∧
    (heldUp.node ≠ .off ∧ heldUp.pins.trackPower = false) ∧ (run12.node = .sync ∨ run12.node = .run) ∧
    run12.bind.unsaved = false ∧ { run12.bind with unsaved := true }.unsaved = true ∧ run12.sup.write = none := by
  decide +kernel

end Sys2Proof.Tests
end

/-! # The light of a notice (R32) -/

section
namespace Sys2Proof.Machine

/-- The bits of a number stand most significant first: the `i`-th is bit `w - 1 - i`. -/
theorem bitsOfNat_eq_map_testBit (w n : Nat) :
    bitsOfNat w n = (List.range w).map (fun i => n.testBit (w - 1 - i)) := by
  induction w with
  | zero => rfl
  | succ w ih =>
    rw [bitsOfNat, ih, List.range_succ_eq_map, List.map_cons, List.map_map]
    congr 1
    refine List.map_congr_left fun i _ => ?_
    simp only [Function.comp_apply]
    congr 1
    omega

theorem bitsOf_eq_map_getLsbD {w : Nat} (x : BitVec w) :
    bitsOf x = (List.range w).map (fun i => x.getLsbD (w - 1 - i)) :=
  bitsOfNat_eq_map_testBit w x.toNat

@[simp] theorem bitsOf_length {w : Nat} (x : BitVec w) : (bitsOf x).length = w := by
  simp [bitsOf_eq_map_getLsbD]

/-- The bits of a complement are the complements of the bits: every position read lies below the width. -/
theorem bitsOf_not {w : Nat} (x : BitVec w) : bitsOf (~~~x) = (bitsOf x).map (!·) := by
  rw [bitsOf_eq_map_getLsbD, bitsOf_eq_map_getLsbD, List.map_map]
  refine List.map_congr_left fun i hi => ?_
  have hbit : w - 1 - i < w := by
    have := List.mem_range.mp hi
    omega
  simp [hbit]

theorem Notice.marks_length (n : Notice) : n.marks.length = 24 := by
  simp [Notice.marks]

/-- R32: the marks of a notice as the bits of its fields. -/
theorem Notice.marks_eq (n : Notice) :
    n.marks = (List.range 4).map (fun i => n.code.getLsbD (3 - i)) ++ (List.range 16).map (fun i => n.handset.getLsbD (15 - i))
      ++ (List.range 4).map (fun i => !n.code.getLsbD (3 - i)) := by
  rw [Notice.marks, bitsOf_not, bitsOf_eq_map_getLsbD n.code, bitsOf_eq_map_getLsbD n.handset, List.map_map]
  rfl

/-- R32: a space and a mark last 4 ticks, and a long mark 3 more. -/
theorem sum_spacedMarks (marks : List Bool) :
    ((marks.map (fun m => [(false, 2), (true, markTicks m)])).flatten.map (·.2)).sum =
      4 * marks.length + 3 * marks.count true := by
  induction marks with
  | nil => rfl
  | cons m rest ih =>
    rw [List.map_cons, List.flatten_cons, List.map_append, List.sum_append, ih, List.length_cons]
    cases m with
    | false =>
      have hcount : (false :: rest).count true = rest.count true := by simp
      simp only [hcount, List.map_cons, List.map_nil, List.sum_cons, List.sum_nil, markTicks, Bool.false_eq_true, if_false]
      omega
    | true =>
      simp only [List.count_cons_self, List.map_cons, List.map_nil, List.sum_cons, List.sum_nil, markTicks, if_true]
      omega

/-- R32: a notice lasts 108 ticks, and 3 more for each long mark. -/
theorem Notice.ticks_eq (n : Notice) : n.ticks = 108 + 3 * n.marks.count true := by
  have hsum := sum_spacedMarks n.marks
  rw [n.marks_length] at hsum
  rw [Notice.ticks, Notice.light, List.map_cons, List.sum_cons, hsum]
  omega

theorem Notice.ticks_bounds (n : Notice) : 108 ≤ n.ticks ∧ n.ticks ≤ 180 := by
  have hlong : n.marks.count true ≤ 24 := n.marks_length ▸ List.count_le_length
  rw [n.ticks_eq]
  omega

/-- Settles O22: the light is the model's own with `markTicks` read out, the marks are the bits of the fields, and the length
is counted from its long marks. -/
theorem noticeLightCarriesItsFields : Obligations.NoticeLightCarriesItsFields := by
  intro n
  obtain ⟨hlow, hhigh⟩ := n.ticks_bounds
  have hrepeat : n.ticks < Config.noticeInterval := Nat.lt_of_le_of_lt hhigh (by decide)
  exact ⟨rfl, n.marks_eq, rfl, hlow, hhigh, hrepeat⟩

end Sys2Proof.Machine
end

/-! # The expiry of a latched request (R42) -/

section
namespace Sys2Proof.Machine

@[simp] theorem exec_requestExpiry (a : HandsetAddr) (s : State) :
    exec (.requestExpiry a) s = .next (requestExpiry a s) := rfl

theorem requestExpiry_of_latchedRequest_none {a : HandsetAddr} {s : State} (hnone : latchedRequest s a = none) :
    requestExpiry a s = s := by
  rw [requestExpiry, hnone]

/-- R42: the hold runs from the latch time; what goes is the request alone. -/
theorem requestExpiry_of_latchedRequest_some {a : HandsetAddr} {s : State} {r : Request}
    (hlatched : latchedRequest s a = some r) :
    requestExpiry a s =
      if arrived s.now (Time.plus r.latched (requestHoldTicks s.working)) then
        s.updateHandset a (fun e => { e with request := none })
      else s := by
  rw [requestExpiry, hlatched]

theorem latchedRequest_of_handsetEntry {a : HandsetAddr} {s : State} {e : HandsetEntry} (hentry : handsetEntry s a = some e) :
    latchedRequest s a = e.request := by
  rw [latchedRequest, hentry]

/-- Settles O28: the expiry reads the request of the entry, and splits on whether there is one. -/
theorem latchedRequestExpires : Obligations.LatchedRequestExpires := by
  intro a s e hentry
  have hread : latchedRequest s a = e.request := latchedRequest_of_handsetEntry hentry
  constructor
  · intro hnone
    rw [exec_requestExpiry, requestExpiry_of_latchedRequest_none (hread.trans hnone)]
  · intro r hsome hdue
    have hdue' : arrived s.now (Time.plus r.latched (requestHoldTicks s.working)) = true := hdue
    rw [exec_requestExpiry, requestExpiry_of_latchedRequest_some (hread.trans hsome), if_pos hdue', State.updateHandset]

end Sys2Proof.Machine
end

/-! # The expiry of an occupancy entry (R81) and of an approach record (R90) -/

section
namespace Sys2Proof.Machine

@[simp] theorem exec_occupancyExpiry (i : Nat) (s : State) :
    exec (.occupancyExpiry i) s = .next (occupancyExpiry i s) := rfl

@[simp] theorem exec_approachExpiry (i : Nat) (s : State) :
    exec (.approachExpiry i) s = .next (approachExpiry i s) := rfl

@[simp] theorem endArrived_at (now t : Time) : endArrived now (.at t) = arrived now t := rfl

theorem occupancyExpiry_of_getElem?_none {i : Nat} {s : State} (hnone : s.occ.list[i]? = none) :
    occupancyExpiry i s = s := by
  rw [occupancyExpiry, hnone]

theorem occupancyExpiry_of_getElem?_some {i : Nat} {s : State} {e : OccupancyEntry} (hentry : s.occ.list[i]? = some e) :
    occupancyExpiry i s = if endArrived s.now e.stop then s.setOccupancy (s.occ.list.eraseIdx i) else s := by
  rw [occupancyExpiry, hentry]

theorem approachExpiry_of_getElem?_none {i : Nat} {s : State} (hnone : s.occ.approach[i]? = none) :
    approachExpiry i s = s := by
  rw [approachExpiry, hnone]

theorem approachExpiry_of_getElem?_some {i : Nat} {s : State} {r : ApproachRecord} (hrecord : s.occ.approach[i]? = some r) :
    approachExpiry i s = if arrived s.now r.window.stop then s.setApproach (s.occ.approach.eraseIdx i) else s := by
  rw [approachExpiry, hrecord]

/-- Settles O36: each expiry reads its list at the index, and splits on whether anything stands there. -/
theorem windowsExpireAtTheirEnds : Obligations.WindowsExpireAtTheirEnds := by
  refine ⟨?entryLeaves, ?noEntry, ?recordLeaves, ?noRecord⟩
  case entryLeaves =>
    intro i s e t hentry hstop hdue
    have harrived : endArrived s.now e.stop = true := by rw [hstop, endArrived_at, hdue]
    rw [exec_occupancyExpiry, occupancyExpiry_of_getElem?_some hentry, if_pos harrived, State.setOccupancy]
  case noEntry =>
    intro i s hnone
    rw [exec_occupancyExpiry, occupancyExpiry_of_getElem?_none hnone]
  case recordLeaves =>
    intro i s r hrecord hdue
    rw [exec_approachExpiry, approachExpiry_of_getElem?_some hrecord, if_pos hdue, State.setApproach]
  case noRecord =>
    intro i s hnone
    rw [exec_approachExpiry, approachExpiry_of_getElem?_none hnone]

end Sys2Proof.Machine
end

/-! # What each command can change: one lemma per command, in the wording of Laws/Frames -/

section
namespace Sys2Proof.Machine

/-- An accepted edge writes its gate, the occupancy list and what a report writes. -/
theorem acceptEdge_frame (s : State) (l : Lane) (lit : Bool) : ∃ g hs e u r q n es, acceptEdge s l lit =
    { s with gates := g, handsets := hs, bind := { s.bind with entries := e, unsaved := u, runs := r },
             line := { s.line with queue := q, nextId := n }, occ := { s.occ with list := es } } := by
  obtain ⟨_, _, _, _, _, _, _, _, h⟩ :=
    reportChange_frame (s.setGate l ((s.gates.get l).accept s.now lit)) l (s.gates.get l).codedStall
  exact ⟨_, _, _, _, _, _, _, _, by rw [acceptEdge, h]; rfl⟩

theorem noticeComplete_frame (l : Lane) (s : State) : ∃ g, noticeComplete l s =
    { s with gates := g } := by
  unfold noticeComplete
  split
  · split <;> exact ⟨_, rfl⟩
  · exact ⟨_, rfl⟩

theorem blankingEnd_frame (l : Lane) (s : State) : ∃ g, blankingEnd l s =
    { s with gates := g } := by
  unfold blankingEnd
  simp only
  split <;> exact ⟨_, rfl⟩

theorem levelSettled_frame (l : Lane) (x y : Bool) (s : State) : ∃ g, levelSettled l x y s =
    { s with gates := g } := by
  unfold levelSettled
  simp only
  split <;> exact ⟨_, rfl⟩

theorem noticeRunRepeat_frame (l : Lane) (s : State) : ∃ g r, noticeRunRepeat l s =
    { s with gates := g, bind := { s.bind with runs := r } } := by
  unfold noticeRunRepeat
  split
  · next r _ =>
    split
    · obtain ⟨_, h⟩ := requestNext_frame s l (runNotice s r.car)
      exact ⟨_, _, by rw [repeatRun, h]; rfl⟩
    · exact ⟨_, _, rfl⟩
  · exact ⟨_, _, rfl⟩

theorem requestExpiry_frame (a : HandsetAddr) (s : State) : ∃ hs, requestExpiry a s =
    { s with handsets := hs } := by
  unfold requestExpiry
  split
  · split <;> exact ⟨_, rfl⟩
  · exact ⟨_, rfl⟩

theorem occupancyExpiry_frame (i : Nat) (s : State) : ∃ es, occupancyExpiry i s =
    { s with occ := { s.occ with list := es } } := by
  unfold occupancyExpiry
  split
  · split <;> exact ⟨_, rfl⟩
  · exact ⟨_, rfl⟩

theorem laneHoldEnd_frame (l : Lane) (s : State) : ∃ h, laneHoldEnd l s =
    { s with occ := { s.occ with holds := h } } := by
  unfold laneHoldEnd
  split <;> exact ⟨_, rfl⟩

theorem approachExpiry_frame (i : Nat) (s : State) : ∃ rs, approachExpiry i s =
    { s with occ := { s.occ with approach := rs } } := by
  unfold approachExpiry
  split
  · split <;> exact ⟨_, rfl⟩
  · exact ⟨_, rfl⟩

theorem claimExpiry_frame (i : Nat) (s : State) : ∃ cs, claimExpiry i s =
    { s with grants := { s.grants with claims := cs } } := by
  unfold claimExpiry
  split
  · split <;> exact ⟨_, rfl⟩
  · exact ⟨_, rfl⟩

theorem grantLate_frame (l : Lane) (s : State) : ∃ es sl e c q n, grantLate l s =
    { s with occ := { s.occ with list := es }, grants := { s.grants with slots := sl },
             bind := { s.bind with entries := e, cursor := c }, line := { s.line with queue := q, nextId := n } } := by
  unfold grantLate
  split
  · split
    · exact withdraw_frame s l .late
    · exact ⟨_, _, _, _, _, _, rfl⟩
  · exact ⟨_, _, _, _, _, _, rfl⟩

theorem frameDeadline_frame (i : Nat) (s : State) : ∃ es sl e c q n, frameDeadline i s =
    { s with occ := { s.occ with list := es }, grants := { s.grants with slots := sl },
             bind := { s.bind with entries := e, cursor := c }, line := { s.line with queue := q, nextId := n } } := by
  unfold frameDeadline
  split
  · next f _ =>
    split
    · exact removeLate_frame s f
    · exact ⟨_, _, _, _, _, _, rfl⟩
  · exact ⟨_, _, _, _, _, _, rfl⟩

theorem bladeThrow_frame (l : Lane) (s : State) : ∃ bs, bladeThrow l s =
    { s with blades := bs } := by
  unfold bladeThrow
  simp only
  split <;> exact ⟨_, rfl⟩

theorem coolingEnd_frame (l : Lane) (s : State) : ∃ bs, coolingEnd l s =
    { s with blades := bs } := by
  unfold coolingEnd
  simp only
  split <;> exact ⟨_, rfl⟩

theorem bladeRelease_frame (l : Lane) (s : State) : ∃ bs es sl, bladeRelease l s =
    { s with blades := bs, occ := { s.occ with list := es }, grants := { s.grants with slots := sl } } := by
  unfold bladeRelease
  simp only
  split
  · split <;> exact ⟨_, _, _, rfl⟩
  · exact ⟨_, _, _, rfl⟩

theorem openCoil_frame (l : Lane) (x y : Bool) (s : State) : ∃ ps bs es sl, openCoil l x y s =
    { s with pins := ps, blades := bs, occ := { s.occ with list := es }, grants := { s.grants with slots := sl } } := by
  unfold openCoil
  simp only
  split
  · split <;> exact ⟨_, _, _, _, rfl⟩
  · exact ⟨_, _, _, _, rfl⟩

theorem attemptStart_frame (phase : BitVec 3) (s : State) : ∃ x y, attemptStart phase s =
    { s with line := { s.line with state := x, send := y } } := by
  unfold attemptStart
  split
  · split <;> exact ⟨_, _, rfl⟩
  · exact ⟨_, _, rfl⟩

theorem arbitrationLoss_frame (i : Nat) (s : State) : ∃ y, arbitrationLoss i s =
    { s with line := { s.line with send := y } } := by
  unfold arbitrationLoss
  split
  · split <;> exact ⟨_, rfl⟩
  all_goals exact ⟨_, rfl⟩

theorem bitFault_frame (i : Nat) (s : State) : ∃ y, bitFault i s =
    { s with line := { s.line with send := y } } := by
  unfold bitFault
  split
  · split <;> exact ⟨_, rfl⟩
  all_goals exact ⟨_, rfl⟩

theorem attemptComplete_frame (s : State) : ∃ bs sl c ln, attemptComplete s =
    { s with blades := bs, grants := { s.grants with slots := sl }, bind := { s.bind with cursor := c }, line := ln } := by
  unfold attemptComplete
  split
  · next a _ =>
    split
    · exact completeSend_frame s a.frame
    · exact ⟨_, _, _, _, rfl⟩
  all_goals exact ⟨_, _, _, _, rfl⟩

theorem beaconTimer_frame (s : State) : ∃ q n b c, beaconTimer s =
    { s with line := { s.line with queue := q, nextId := n, beacon := b }, bind := { s.bind with cursor := c } } := by
  unfold beaconTimer
  split
  · split
    · exact beaconDue_frame s
    · exact ⟨_, _, _, _, rfl⟩
  · exact ⟨_, _, _, _, rfl⟩

theorem frameDiscarded_frame (bits : List Bool) (s : State) : ∃ x y, frameDiscarded bits s =
    { s with line := { s.line with state := x, send := y } } := by
  unfold frameDiscarded
  split <;> exact ⟨_, _, rfl⟩

theorem stallEnd_frame (l : Lane) (s : State) : ∃ g hs e u r q n es, stallEnd l s =
    { s with gates := g, handsets := hs, bind := { s.bind with entries := e, unsaved := u, runs := r },
             line := { s.line with queue := q, nextId := n }, occ := { s.occ with list := es } } := by
  unfold stallEnd
  simp only
  split
  · obtain ⟨_, _, _, _, _, _, _, h⟩ :=
      stallEndReported_frame (occupancyStallEnd (s.setGate l (s.gates.get l).idled.stopNotice) l) l
    exact ⟨_, _, _, _, _, _, _, _, by rw [h]; rfl⟩
  · exact ⟨_, _, _, _, _, _, _, _, rfl⟩

theorem irEdge_frame (l : Lane) (x y : Bool) (s : State) : ∃ g hs e u r q n es, irEdge l x y s =
    { s with gates := g, handsets := hs, bind := { s.bind with entries := e, unsaved := u, runs := r },
             line := { s.line with queue := q, nextId := n }, occ := { s.occ with list := es } } := by
  unfold irEdge
  simp only
  split
  · split <;> split
    · exact acceptEdge_frame s l y
    · exact ⟨_, _, _, _, _, _, _, _, rfl⟩
    · exact acceptEdge_frame s l y
    · exact ⟨_, _, _, _, _, _, _, _, rfl⟩
  · exact ⟨_, _, _, _, _, _, _, _, rfl⟩

theorem passageClose_frame (l : Lane) (s : State) : ∃ g hs bs e k es h lc rs sl q n, passageClose l s =
    { s with gates := g, handsets := hs, blades := bs, bind := { s.bind with entries := e, cursor := k },
             occ := { s.occ with list := es, holds := h, lastClose := lc, approach := rs },
             grants := { s.grants with slots := sl }, line := { s.line with queue := q, nextId := n } } := by
  unfold passageClose
  simp only
  split
  · next p _ =>
    split
    · split
      · exact ⟨_, _, _, _, _, _, _, _, _, _, _, _, rfl⟩
      · obtain ⟨_, _, _, _, _, _, _, _, _, _, _, h⟩ :=
          handOver_frame (s.setGate l (s.gates.get l).idled) (normalRecord s.working s.now l p)
        exact ⟨_, _, _, _, _, _, _, _, _, _, _, _, by rw [h]; rfl⟩
    · exact ⟨_, _, _, _, _, _, _, _, _, _, _, _, rfl⟩
  all_goals exact ⟨_, _, _, _, _, _, _, _, _, _, _, _, rfl⟩

theorem stallDeclaration_frame (l : Lane) (s : State) : ∃ g hs bs b es h lc rs sl q n, stallDeclaration l s =
    { s with gates := g, handsets := hs, blades := bs, bind := b,
             occ := { s.occ with list := es, holds := h, lastClose := lc, approach := rs },
             grants := { s.grants with slots := sl }, line := { s.line with queue := q, nextId := n } } := by
  unfold stallDeclaration
  simp only
  split
  · next p _ =>
    split
    · obtain ⟨_, _, _, _, _, _, _, _, _, _, _, h⟩ :=
        handOver_frame (s.setGate l ((s.gates.get l).stalled p)) (stalledRecord s.now l p)
      obtain ⟨_, _, _, _, _, _, _, _, h'⟩ :=
        reportChange_frame (handOver (s.setGate l ((s.gates.get l).stalled p)) (stalledRecord s.now l p)) l none
      exact ⟨_, _, _, _, _, _, _, _, _, _, _, by rw [h', h]; rfl⟩
    · exact ⟨_, _, _, _, _, _, _, _, _, _, _, rfl⟩
  all_goals exact ⟨_, _, _, _, _, _, _, _, _, _, _, rfl⟩

theorem handsetFrame_frame (levels : List Bool) (span : Nat) (s : State) : ∃ g hs e u r q n, handsetFrame levels span s =
    { s with gates := g, handsets := hs, bind := { s.bind with entries := e, unsaved := u, runs := r },
             line := { s.line with queue := q, nextId := n } } := by
  unfold handsetFrame
  split
  · split
    · unfold runCloses
      split
      · exact acceptFrame_frame s _
      · exact ⟨_, _, _, _, _, _, _, rfl⟩
    · exact ⟨_, _, _, _, _, _, _, rfl⟩
  · exact ⟨_, _, _, _, _, _, _, rfl⟩

theorem handsetStaleRemoval_frame (a : HandsetAddr) (s : State) : ∃ g hs e u r q n, handsetStaleRemoval a s =
    { s with gates := g, handsets := hs, bind := { s.bind with entries := e, unsaved := u, runs := r },
             line := { s.line with queue := q, nextId := n } } := by
  unfold handsetStaleRemoval
  split
  · split
    · exact removeHandset_frame s _
    · exact ⟨_, _, _, _, _, _, _, rfl⟩
  · exact ⟨_, _, _, _, _, _, _, rfl⟩

theorem gestureLapse_frame (a : HandsetAddr) (s : State) : ∃ g hs e u r q n, gestureLapse a s =
    { s with gates := g, handsets := hs, bind := { s.bind with entries := e, unsaved := u, runs := r },
             line := { s.line with queue := q, nextId := n } } := by
  unfold gestureLapse
  split
  · split
    · obtain ⟨_, _, _, _, _, _, _, h⟩ := judgeLocal_frame (s.updateHandset a (fun x => { x with fresh := false }))
      exact ⟨_, _, _, _, _, _, _, by rw [h]; rfl⟩
    · exact ⟨_, _, _, _, _, _, _, rfl⟩
  · exact ⟨_, _, _, _, _, _, _, rfl⟩

theorem tick_frame (s : State) : ∃ a u g hs o sl bs ln, tick s =
    { s with now := a, sup := u, gates := g, handsets := hs, occ := o, grants := { s.grants with slots := sl }, blades := bs,
             line := ln } := by
  unfold tick
  split <;> exact ⟨_, _, _, _, _, _, _, _, rfl⟩

theorem heatPress_frame (s : State) : ∃ r hs e u q n, heatPress s =
    { s with sup := { s.sup with heatReleased := r }, handsets := hs, bind := { s.bind with entries := e, unsaved := u },
             line := { s.line with queue := q, nextId := n } } := by
  unfold heatPress
  split
  · split
    · unfold heatPressTaken
      split
      · obtain ⟨_, _, h⟩ := applyHeat_frame (queueHeat { s with sup := { s.sup with heatReleased := none } })
        exact ⟨_, _, _, _, _, _, by rw [h]; rfl⟩
      · exact ⟨_, _, _, _, _, _, rfl⟩
    · exact ⟨_, _, _, _, _, _, rfl⟩
  · exact ⟨_, _, _, _, _, _, rfl⟩

theorem heatInputReleased_frame (s : State) : ∃ r, heatInputReleased s =
    { s with sup := { s.sup with heatReleased := r } } := by
  unfold heatInputReleased
  split <;> exact ⟨_, rfl⟩

theorem trackPowerReturn_frame (s : State) : ∃ ps d, trackPowerReturn s =
    { s with pins := ps, sup := { s.sup with debounce := d } } := by
  unfold trackPowerReturn
  split <;> exact ⟨_, _, rfl⟩

theorem resetRelease_frame (s : State) : ∃ ps b w, resetRelease s =
    { s with pins := ps, sup := { s.sup with nvBusy := b, load := w } } := by
  unfold resetRelease
  split <;> exact ⟨_, _, _, rfl⟩

theorem coilPulseStart_frame (s : State) : ∃ bs w, coilPulseStart s =
    { s with blades := bs, sup := { s.sup with load := w } } := by
  unfold coilPulseStart
  split
  · split <;> exact ⟨_, _, rfl⟩
  all_goals exact ⟨_, _, rfl⟩

theorem syncEnd_frame (s : State) : ∃ n, syncEnd s =
    { s with node := n } := by
  unfold syncEnd
  split
  · split <;> exact ⟨_, rfl⟩
  · exact ⟨_, rfl⟩

theorem saveComplete_frame (s : State) : ∃ v b t u, saveComplete s =
    { s with nv := v, sup := { s.sup with nvBusy := b, save := t }, bind := { s.bind with unsaved := u } } := by
  unfold saveComplete
  split
  · split <;> exact ⟨_, _, _, _, rfl⟩
  · exact ⟨_, _, _, _, rfl⟩

theorem configWriteComplete_frame (s : State) : ∃ v i b w, configWriteComplete s =
    { s with nv := v, sup := { s.sup with mirror := { s.sup.mirror with image := i }, nvBusy := b, write := w } } := by
  unfold configWriteComplete
  split
  · split <;> exact ⟨_, _, _, _, rfl⟩
  · exact ⟨_, _, _, _, rfl⟩

end Sys2Proof.Machine
end

/-! # Commands and steps: what holds of every command -/

section
namespace Sys2Proof.Machine

open Sys2Proof.Safety

/-- The state a command leaves. -/
def effect (c : Instr) (s : State) : State :=
  match exec c s with
  | .next t => t
  | .fault _ | .refused _ => s

/-- Every command has a next state. -/
theorem exec_eq_effect (c : Instr) (s : State) : exec c s = .next (effect c s) := by
  cases c <;> rfl

theorem eq_effect_of_exec {c : Instr} {s t : State} (h : exec c s = .next t) : t = effect c s := by
  rw [exec_eq_effect] at h
  injection h with h
  exact h.symm

/-- What every command keeps, and the queue of waiting commands does not matter to, every step keeps. -/
theorem step_keeps {P : State → Prop} (hpending : ∀ s q, P s → P { s with pending := q })
    (heffect : ∀ c s, P s → P (effect c s)) (s t : State) (hs : P s) (h : step s = .next t) : P t := by
  unfold step at h
  split at h
  · next c rest _ =>
    rw [eq_effect_of_exec h]
    exact heffect c _ (hpending s rest hs)
  · injection h with h
    exact h ▸ hs

/-- Settles O1: both clauses are the two branches of `step`. -/
theorem stepTakesTheFrontCommand : Obligations.StepTakesTheFrontCommand := by
  refine ⟨fun c rest s => rfl, fun s h => ?_⟩
  rw [step, h]

/-! ## The frames of other stations -/

/-- R153: the taker of a kind of frame. -/
def taker : FrameKind → GoodFrame → Time → State → State
  | .pass => takePass
  | .bind => takeBind
  | .heat => takeHeat
  | .join => takeJoin
  | .beacon => takeNothing
  | .cfgr => takeCfgr
  | .cfgd => takeNothing
  | .cfgw => takeCfgw
  | .cfgx => takeCfgx

theorem effect_received (kind : FrameKind) (bits : List Bool) (phase : BitVec 3) (s : State) :
    effect (received kind bits phase) s = receiveFrame kind (taker kind) bits phase s := by
  cases kind <;> rfl

theorem exec_received (kind : FrameKind) (bits : List Bool) (phase : BitVec 3) (s : State) :
    exec (received kind bits phase) s = .next (receiveFrame kind (taker kind) bits phase s) := by
  rw [exec_eq_effect, effect_received]

/-- What the end of a good frame keeps, case by case. -/
theorem receiveFrame_keeps {P : State → Prop} {kind : FrameKind} {take : GoodFrame → Time → State → State} {bits : List Bool}
    {phase : BitVec 3} {s : State} (hs : P s) (hfault : s.node.live = true → P (enterFault (frameEnded s)))
    (htake : ∀ f, delivered s bits kind f → P (take f (stampOf s phase kind) (heard (frameEnded s) f))) :
    P (receiveFrame kind take bits phase s) := by
  rcases receiveFrame_cases kind take bits phase s with h | ⟨hlive, h⟩ | ⟨f, hf, h⟩ <;> rw [h]
  · exact hs
  · exact hfault hlive
  · exact htake f hf

/-- Step 1 as a whole: the end of the frame on the line and the neighbour records. -/
theorem heard_frameEnded_frame (s : State) (f : GoodFrame) : ∃ u d, heard (frameEnded s) f =
    { s with occ := { s.occ with up := u, down := d }, line := { s.line with state := .waitIdle 0, send := .idle } } := by
  obtain ⟨u, d, h⟩ := heard_frame (frameEnded s) f
  exact ⟨u, d, by rw [h]; rfl⟩

/-! ## What the commands of the working blocks leave alone -/

/-- The node state, the nonvolatile store and the queue of waiting commands stand. -/
structure Apart (s t : State) : Prop where
  node : t.node = s.node
  nv : t.nv = s.nv
  pending : t.pending = s.pending

theorem Apart.refl (s : State) : Apart s s := ⟨rfl, rfl, rfl⟩

theorem Apart.trans {s t u : State} (h : Apart s t) (k : Apart t u) : Apart s u :=
  ⟨k.node.trans h.node, k.nv.trans h.nv, k.pending.trans h.pending⟩

theorem judgeLocal_apart (s : State) : Apart s (judgeLocal s) := by
  obtain ⟨_, _, _, _, _, _, _, h⟩ := judgeLocal_frame s
  rw [h]; exact ⟨rfl, rfl, rfl⟩

theorem removeFrame_apart (s : State) (id : Nat) : Apart s (removeFrame s id) := by
  obtain ⟨_, _, _, h⟩ := removeFrame_frame s id
  rw [h]; exact ⟨rfl, rfl, rfl⟩

theorem withdraw_apart (s : State) (l : Lane) (o : Outcome) : Apart s (withdraw s l o) := by
  obtain ⟨_, _, _, _, _, _, h⟩ := withdraw_frame s l o
  rw [h]; exact ⟨rfl, rfl, rfl⟩

theorem handOver_apart (s : State) (r : PassageRecord) : Apart s (handOver s r) := by
  obtain ⟨_, _, _, _, _, _, _, _, _, _, _, h⟩ := handOver_frame s r
  rw [h]; exact ⟨rfl, rfl, rfl⟩

theorem reportChange_apart (s : State) (l : Lane) (old : Option CarCode) : Apart s (reportChange s l old) := by
  obtain ⟨_, _, _, _, _, _, _, _, h⟩ := reportChange_frame s l old
  rw [h]; exact ⟨rfl, rfl, rfl⟩

theorem acceptEdge_apart (s : State) (l : Lane) (lit : Bool) : Apart s (acceptEdge s l lit) :=
  (⟨rfl, rfl, rfl⟩ : Apart s (s.setGate l _)).trans (reportChange_apart _ _ _)

theorem irEdge_apart (l : Lane) (x y : Bool) (s : State) : Apart s (irEdge l x y s) := by
  obtain ⟨_, _, _, _, _, _, _, _, h⟩ := irEdge_frame l x y s
  rw [h]; exact ⟨rfl, rfl, rfl⟩

theorem passageClose_apart (l : Lane) (s : State) : Apart s (passageClose l s) := by
  obtain ⟨_, _, _, _, _, _, _, _, _, _, _, _, h⟩ := passageClose_frame l s
  rw [h]; exact ⟨rfl, rfl, rfl⟩

theorem stallDeclaration_apart (l : Lane) (s : State) : Apart s (stallDeclaration l s) := by
  obtain ⟨_, _, _, _, _, _, _, _, _, _, _, h⟩ := stallDeclaration_frame l s
  rw [h]; exact ⟨rfl, rfl, rfl⟩

theorem stallEnd_apart (l : Lane) (s : State) : Apart s (stallEnd l s) := by
  obtain ⟨_, _, _, _, _, _, _, _, h⟩ := stallEnd_frame l s
  rw [h]; exact ⟨rfl, rfl, rfl⟩

theorem noticeComplete_apart (l : Lane) (s : State) : Apart s (noticeComplete l s) := by
  obtain ⟨_, h⟩ := noticeComplete_frame l s
  rw [h]; exact ⟨rfl, rfl, rfl⟩

theorem blankingEnd_apart (l : Lane) (s : State) : Apart s (blankingEnd l s) := by
  obtain ⟨_, h⟩ := blankingEnd_frame l s
  rw [h]; exact ⟨rfl, rfl, rfl⟩

theorem handsetFrame_apart (levels : List Bool) (span : Nat) (s : State) : Apart s (handsetFrame levels span s) := by
  obtain ⟨_, _, _, _, _, _, _, h⟩ := handsetFrame_frame levels span s
  rw [h]; exact ⟨rfl, rfl, rfl⟩

theorem handsetStaleRemoval_apart (a : HandsetAddr) (s : State) : Apart s (handsetStaleRemoval a s) := by
  obtain ⟨_, _, _, _, _, _, _, h⟩ := handsetStaleRemoval_frame a s
  rw [h]; exact ⟨rfl, rfl, rfl⟩

theorem requestExpiry_apart (a : HandsetAddr) (s : State) : Apart s (requestExpiry a s) := by
  obtain ⟨_, h⟩ := requestExpiry_frame a s
  rw [h]; exact ⟨rfl, rfl, rfl⟩

theorem gestureLapse_apart (a : HandsetAddr) (s : State) : Apart s (gestureLapse a s) := by
  obtain ⟨_, _, _, _, _, _, _, h⟩ := gestureLapse_frame a s
  rw [h]; exact ⟨rfl, rfl, rfl⟩

theorem noticeRunRepeat_apart (l : Lane) (s : State) : Apart s (noticeRunRepeat l s) := by
  obtain ⟨_, _, h⟩ := noticeRunRepeat_frame l s
  rw [h]; exact ⟨rfl, rfl, rfl⟩

theorem occupancyExpiry_apart (i : Nat) (s : State) : Apart s (occupancyExpiry i s) := by
  obtain ⟨_, h⟩ := occupancyExpiry_frame i s
  rw [h]; exact ⟨rfl, rfl, rfl⟩

theorem approachExpiry_apart (i : Nat) (s : State) : Apart s (approachExpiry i s) := by
  obtain ⟨_, h⟩ := approachExpiry_frame i s
  rw [h]; exact ⟨rfl, rfl, rfl⟩

theorem claimExpiry_apart (i : Nat) (s : State) : Apart s (claimExpiry i s) := by
  obtain ⟨_, h⟩ := claimExpiry_frame i s
  rw [h]; exact ⟨rfl, rfl, rfl⟩

theorem laneHoldEnd_apart (l : Lane) (s : State) : Apart s (laneHoldEnd l s) := by
  obtain ⟨_, h⟩ := laneHoldEnd_frame l s
  rw [h]; exact ⟨rfl, rfl, rfl⟩

theorem grantLate_apart (l : Lane) (s : State) : Apart s (grantLate l s) := by
  obtain ⟨_, _, _, _, _, _, h⟩ := grantLate_frame l s
  rw [h]; exact ⟨rfl, rfl, rfl⟩

theorem bladeThrow_apart (l : Lane) (s : State) : Apart s (bladeThrow l s) := by
  obtain ⟨_, h⟩ := bladeThrow_frame l s
  rw [h]; exact ⟨rfl, rfl, rfl⟩

theorem bladeRelease_apart (l : Lane) (s : State) : Apart s (bladeRelease l s) := by
  obtain ⟨_, _, _, h⟩ := bladeRelease_frame l s
  rw [h]; exact ⟨rfl, rfl, rfl⟩

theorem coolingEnd_apart (l : Lane) (s : State) : Apart s (coolingEnd l s) := by
  obtain ⟨_, h⟩ := coolingEnd_frame l s
  rw [h]; exact ⟨rfl, rfl, rfl⟩

theorem openCoil_apart (l : Lane) (x y : Bool) (s : State) : Apart s (openCoil l x y s) := by
  obtain ⟨_, _, _, _, h⟩ := openCoil_frame l x y s
  rw [h]; exact ⟨rfl, rfl, rfl⟩

theorem attemptStart_apart (phase : BitVec 3) (s : State) : Apart s (attemptStart phase s) := by
  obtain ⟨_, _, h⟩ := attemptStart_frame phase s
  rw [h]; exact ⟨rfl, rfl, rfl⟩

theorem arbitrationLoss_apart (i : Nat) (s : State) : Apart s (arbitrationLoss i s) := by
  obtain ⟨_, h⟩ := arbitrationLoss_frame i s
  rw [h]; exact ⟨rfl, rfl, rfl⟩

theorem bitFault_apart (i : Nat) (s : State) : Apart s (bitFault i s) := by
  obtain ⟨_, h⟩ := bitFault_frame i s
  rw [h]; exact ⟨rfl, rfl, rfl⟩

theorem attemptComplete_apart (s : State) : Apart s (attemptComplete s) := by
  obtain ⟨_, _, _, _, h⟩ := attemptComplete_frame s
  rw [h]; exact ⟨rfl, rfl, rfl⟩

theorem frameDeadline_apart (i : Nat) (s : State) : Apart s (frameDeadline i s) := by
  obtain ⟨_, _, _, _, _, _, h⟩ := frameDeadline_frame i s
  rw [h]; exact ⟨rfl, rfl, rfl⟩

theorem beaconTimer_apart (s : State) : Apart s (beaconTimer s) := by
  obtain ⟨_, _, _, _, h⟩ := beaconTimer_frame s
  rw [h]; exact ⟨rfl, rfl, rfl⟩

theorem frameDiscarded_apart (bits : List Bool) (s : State) : Apart s (frameDiscarded bits s) := by
  obtain ⟨_, _, h⟩ := frameDiscarded_frame bits s
  rw [h]; exact ⟨rfl, rfl, rfl⟩

theorem levelSettled_apart (l : Lane) (x y : Bool) (s : State) : Apart s (levelSettled l x y s) := by
  obtain ⟨_, h⟩ := levelSettled_frame l x y s
  rw [h]; exact ⟨rfl, rfl, rfl⟩

theorem lineReady_apart (bits : List Bool) (s : State) : Apart s (lineReady bits s) := by
  obtain ⟨_, _, h⟩ := lineReady_frame bits s
  rw [h]; exact ⟨rfl, rfl, rfl⟩

theorem tick_apart (s : State) : Apart s (tick s) := by
  obtain ⟨_, _, _, _, _, _, _, _, h⟩ := tick_frame s
  rw [h]; exact ⟨rfl, rfl, rfl⟩

theorem applyHeat_apart (s : State) : Apart s (applyHeat s) := by
  obtain ⟨_, _, h⟩ := applyHeat_frame s
  rw [h]; exact ⟨rfl, rfl, rfl⟩

theorem heatPress_apart (s : State) : Apart s (heatPress s) := by
  obtain ⟨_, _, _, _, _, _, h⟩ := heatPress_frame s
  rw [h]; exact ⟨rfl, rfl, rfl⟩

theorem heatInputReleased_apart (s : State) : Apart s (heatInputReleased s) := by
  obtain ⟨_, h⟩ := heatInputReleased_frame s
  rw [h]; exact ⟨rfl, rfl, rfl⟩

theorem trackPowerReturn_apart (s : State) : Apart s (trackPowerReturn s) := by
  obtain ⟨_, _, h⟩ := trackPowerReturn_frame s
  rw [h]; exact ⟨rfl, rfl, rfl⟩

theorem resetRelease_apart (s : State) : Apart s (resetRelease s) := by
  obtain ⟨_, _, _, h⟩ := resetRelease_frame s
  rw [h]; exact ⟨rfl, rfl, rfl⟩

theorem coilPulseStart_apart (s : State) : Apart s (coilPulseStart s) := by
  obtain ⟨_, _, h⟩ := coilPulseStart_frame s
  rw [h]; exact ⟨rfl, rfl, rfl⟩

/-- The takers but those of CFGW and CFGX, which reach the store. -/
theorem taker_apart (kind : FrameKind) (h : kind ≠ .cfgw) (h' : kind ≠ .cfgx) (f : GoodFrame) (t : Time) (s : State) :
    Apart s (taker kind f t s) := by
  cases kind with
  | pass =>
    obtain ⟨_, _, _, _, _, _, _, _, _, _, h⟩ := takePass_frame f t s
    simp only [taker]; rw [h]; exact ⟨rfl, rfl, rfl⟩
  | bind =>
    simp only [taker, takeBind]
    split
    · next p _ =>
      split
      · obtain ⟨_, _, _, h⟩ := judgeProposal_frame s p
        rw [h]; exact ⟨rfl, rfl, rfl⟩
      · exact .refl s
    · exact .refl s
  | heat =>
    simp only [taker, takeHeat]
    split
    · exact applyHeat_apart s
    · exact .refl s
  | join =>
    simp only [taker, takeJoin]
    split
    · obtain ⟨_, _, _, h⟩ := joinTaken_frame s f.originator
      rw [h]; exact ⟨rfl, rfl, rfl⟩
    · exact .refl s
  | cfgr =>
    simp only [taker, takeCfgr]
    split <;> exact ⟨rfl, rfl, rfl⟩
  | beacon => exact .refl s
  | cfgd => exact .refl s
  | cfgw => exact absurd rfl h
  | cfgx => exact absurd rfl h'

theorem heard_frameEnded_apart (s : State) (f : GoodFrame) : Apart s (heard (frameEnded s) f) := by
  obtain ⟨_, _, h⟩ := heard_frameEnded_frame s f
  rw [h]; exact ⟨rfl, rfl, rfl⟩

/-! ## The commands that move the node state or reach the store -/

/-- A good frame of another station, and the commands of the supervisor's own work. -/
inductive Moves : Instr → Prop
  | frame (kind : FrameKind) (bits : List Bool) (phase : BitVec 3) : Moves (received kind bits phase)
  | saveComplete : Moves .saveComplete
  | configWriteComplete : Moves .configWriteComplete
  | coilPulseEnd (present strap : Bool) : Moves (.coilPulseEnd present strap)
  | powerOn (held : Bool) : Moves (.powerOn held)
  | loadReadComplete (strap : Bool) : Moves (.loadReadComplete strap)
  | syncEnd : Moves .syncEnd
  | trackPowerAbsent (high : Bool) : Moves (.trackPowerAbsent high)
  | debounceComplete : Moves .debounceComplete
  | retentionLow : Moves .retentionLow
  | resetAssert : Moves .resetAssert
  | retentionEnds : Moves .retentionEnds

/-- Every other command leaves node state, store and waiting queue apart. -/
theorem effect_apart_or_moves (c : Instr) (s : State) : Apart s (effect c s) ∨ Moves c := by
  cases c with
  | irEdge l x y => exact .inl (irEdge_apart l x y s)
  | passageClose l => exact .inl (passageClose_apart l s)
  | stallDeclaration l => exact .inl (stallDeclaration_apart l s)
  | stallEnd l => exact .inl (stallEnd_apart l s)
  | noticeComplete l => exact .inl (noticeComplete_apart l s)
  | blankingEnd l => exact .inl (blankingEnd_apart l s)
  | handsetFrame levels span => exact .inl (handsetFrame_apart levels span s)
  | handsetStaleRemoval a => exact .inl (handsetStaleRemoval_apart a s)
  | requestExpiry a => exact .inl (requestExpiry_apart a s)
  | gestureLapse a => exact .inl (gestureLapse_apart a s)
  | noticeRunRepeat l => exact .inl (noticeRunRepeat_apart l s)
  | occupancyExpiry i => exact .inl (occupancyExpiry_apart i s)
  | laneHoldEnd l => exact .inl (laneHoldEnd_apart l s)
  | approachExpiry i => exact .inl (approachExpiry_apart i s)
  | grantLate l => exact .inl (grantLate_apart l s)
  | claimExpiry i => exact .inl (claimExpiry_apart i s)
  | bladeThrow l => exact .inl (bladeThrow_apart l s)
  | bladeRelease l => exact .inl (bladeRelease_apart l s)
  | coolingEnd l => exact .inl (coolingEnd_apart l s)
  | openCoil l x y => exact .inl (openCoil_apart l x y s)
  | attemptStart phase => exact .inl (attemptStart_apart phase s)
  | arbitrationLoss i => exact .inl (arbitrationLoss_apart i s)
  | bitFault i => exact .inl (bitFault_apart i s)
  | attemptComplete => exact .inl (attemptComplete_apart s)
  | frameDeadline i => exact .inl (frameDeadline_apart i s)
  | beaconTimer => exact .inl (beaconTimer_apart s)
  | frameDiscarded bits => exact .inl (frameDiscarded_apart bits s)
  | trackPowerReturn => exact .inl (trackPowerReturn_apart s)
  | resetRelease => exact .inl (resetRelease_apart s)
  | heatPress => exact .inl (heatPress_apart s)
  | tick => exact .inl (tick_apart s)
  | levelSettled l x y => exact .inl (levelSettled_apart l x y s)
  | lineReady bits => exact .inl (lineReady_apart bits s)
  | coilPulseStart => exact .inl (coilPulseStart_apart s)
  | heatInputReleased => exact .inl (heatInputReleased_apart s)
  | neighbourSilence side => exact .inl (.refl s)
  | passReceived bits phase => exact .inr (.frame .pass bits phase)
  | bindReceived bits phase => exact .inr (.frame .bind bits phase)
  | joinReceived bits phase => exact .inr (.frame .join bits phase)
  | heatReceived bits phase => exact .inr (.frame .heat bits phase)
  | beaconReceived bits phase => exact .inr (.frame .beacon bits phase)
  | cfgdReceived bits phase => exact .inr (.frame .cfgd bits phase)
  | cfgrReceived bits phase => exact .inr (.frame .cfgr bits phase)
  | cfgwReceived bits phase => exact .inr (.frame .cfgw bits phase)
  | cfgxReceived bits phase => exact .inr (.frame .cfgx bits phase)
  | saveComplete => exact .inr .saveComplete
  | configWriteComplete => exact .inr .configWriteComplete
  | coilPulseEnd present strap => exact .inr (.coilPulseEnd present strap)
  | powerOn held => exact .inr (.powerOn held)
  | loadReadComplete strap => exact .inr (.loadReadComplete strap)
  | syncEnd => exact .inr .syncEnd
  | trackPowerAbsent high => exact .inr (.trackPowerAbsent high)
  | debounceComplete => exact .inr .debounceComplete
  | retentionLow => exact .inr .retentionLow
  | resetAssert => exact .inr .resetAssert
  | retentionEnds => exact .inr .retentionEnds

/-- What a good frame of another station keeps, by its kind. -/
theorem received_keeps {P : State → Prop} {kind : FrameKind} {bits : List Bool} {phase : BitVec 3} {s : State} (hs : P s)
    (hfault : s.node.live = true → P (enterFault (frameEnded s)))
    (htake : ∀ f t, delivered s bits kind f → P (taker kind f t (heard (frameEnded s) f))) :
    P (effect (received kind bits phase) s) := by
  rw [effect_received]
  exact receiveFrame_keeps hs hfault (fun f hf => htake f _ hf)

/-! ## The waiting queue -/

theorem cutWrite_pending (s : State) : (cutWrite s).pending = s.pending := by unfold cutWrite; split <;> rfl

theorem cutSave_pending (s : State) : (cutSave s).pending = s.pending := by unfold cutSave; split <;> rfl

theorem goOff_pending (s : State) : (goOff s).pending = s.pending := by
  simp [goOff, State.offWith, cutSave_pending, cutWrite_pending]

theorem enterLoad_pending (s : State) : (enterLoad s).pending = s.pending := by
  have h : (loadEntered (cutSave (cutWrite s))).pending = s.pending :=
    (cutSave_pending _).trans (cutWrite_pending s)
  unfold enterLoad powerChecked
  split
  · exact h
  · rw [goOff_pending, h]

theorem leaveLoad_pending (s : State) (strap valid : Bool) : (leaveLoad s strap valid).pending = s.pending := by
  unfold leaveLoad; simp only; split <;> rfl

theorem startSave_pending (s : State) : (startSave s).pending = s.pending := by unfold startSave; split <;> rfl

theorem judged_pending (s : State) (valid : Bool) : (judged s valid).pending = s.pending := by
  unfold judged; simp only; split <;> rfl

theorem finishRead_pending (strap : Bool) (s : State) : (finishRead strap s).pending = s.pending := by
  unfold finishRead
  simp only
  split
  · exact judged_pending _ _
  · exact (leaveLoad_pending _ _ _).trans (judged_pending _ _)

theorem finishPulse_pending (l : Lane) (present strap : Bool) (s : State) : (finishPulse l present strap s).pending = s.pending := by
  unfold finishPulse
  simp only
  split
  · rfl
  · exact leaveLoad_pending _ _ _

theorem retentionChecked_pending (s : State) : (retentionChecked s).pending = s.pending := by
  unfold retentionChecked; split
  · rfl
  · exact goOff_pending s

theorem trackPowerAbsent_pending (high : Bool) (s : State) : (trackPowerAbsent high s).pending = s.pending := by
  unfold trackPowerAbsent
  simp only
  split
  · rfl
  iterate 3 exact goOff_pending _
  iterate 2 exact (retentionChecked_pending _).trans (startSave_pending _)
  exact retentionChecked_pending _

theorem taker_pending (kind : FrameKind) (f : GoodFrame) (t : Time) (s : State) : (taker kind f t s).pending = s.pending := by
  by_cases hw : kind = .cfgw
  · subst hw
    simp only [taker, takeCfgw]
    split <;> rfl
  · by_cases hx : kind = .cfgx
    · subst hx
      simp only [taker, takeCfgx]
      split
      · exact enterLoad_pending s
      · rfl
    · exact (taker_apart kind hw hx f t s).pending

/-- Settles O2: the working blocks leave the queue apart, and an entry to OFF or LOAD copies it. -/
theorem commandsLeaveTheWaitingQueue : Obligations.CommandsLeaveTheWaitingQueue := by
  intro c s t h
  rw [eq_effect_of_exec h]
  rcases effect_apart_or_moves c s with ha | hm
  · exact ha.pending
  cases hm with
  | frame kind bits phase =>
    exact received_keeps (P := fun t => t.pending = s.pending) rfl (fun _ => rfl)
      (fun f t _ => (taker_pending _ _ _ _).trans (heard_frameEnded_apart s f).pending)
  | saveComplete =>
    show (saveComplete s).pending = _
    unfold saveComplete
    split
    · split <;> rfl
    · rfl
  | configWriteComplete =>
    show (configWriteComplete s).pending = _
    unfold configWriteComplete
    split
    · split <;> rfl
    · rfl
  | coilPulseEnd present strap =>
    show (coilPulseEnd present strap s).pending = _
    unfold coilPulseEnd
    split
    · split
      · exact finishPulse_pending _ _ _ _
      · rfl
    all_goals rfl
  | powerOn held =>
    show (powerOn held s).pending = _
    unfold powerOn
    split
    · exact enterLoad_pending _
    · rfl
  | loadReadComplete strap =>
    show (loadReadComplete strap s).pending = _
    unfold loadReadComplete
    split
    · split
      · exact finishRead_pending _ _
      · rfl
    all_goals rfl
  | syncEnd =>
    show (syncEnd s).pending = _
    unfold syncEnd
    split
    · split <;> rfl
    · rfl
  | trackPowerAbsent high => exact trackPowerAbsent_pending high s
  | debounceComplete =>
    show (debounceComplete s).pending = _
    unfold debounceComplete
    split
    · split <;> rfl
    · rfl
  | retentionLow =>
    show (retentionLow s).pending = _
    unfold retentionLow
    split
    · exact goOff_pending s
    · rfl
  | resetAssert =>
    show (resetAssert s).pending = _
    unfold resetAssert
    split
    · rfl
    · exact enterLoad_pending _
  | retentionEnds =>
    show (retentionEnds s).pending = _
    unfold retentionEnds
    split
    · rfl
    · exact goOff_pending s

/-! ## The node state (R159) -/

@[simp] theorem goOff_node (s : State) : (goOff s).node = .off := rfl

theorem enterLoad_node (s : State) : (enterLoad s).node = .load ∨ (enterLoad s).node = .off := by
  unfold enterLoad powerChecked
  split
  · exact .inl rfl
  · exact .inr rfl

theorem cutWrite_pins (s : State) : (cutWrite s).pins = s.pins := by unfold cutWrite; split <;> rfl

theorem cutSave_pins (s : State) : (cutSave s).pins = s.pins := by unfold cutSave; split <;> rfl

/-- R160: with track power present the node stays in LOAD. -/
theorem enterLoad_of_power {s : State} (h : s.pins.trackPower = true) : enterLoad s = loadEntered (cutSave (cutWrite s)) := by
  have hp : (loadEntered (cutSave (cutWrite s))).pins.trackPower = true := by
    show (cutSave (cutWrite s)).pins.trackPower = true
    rw [cutSave_pins, cutWrite_pins, h]
  rw [enterLoad, powerChecked, if_pos hp]

theorem leaveLoad_node (s : State) (strap valid : Bool) :
    (leaveLoad s strap valid).node = if strap || !valid then .setup else .sync := by
  unfold leaveLoad
  simp only
  split <;> rfl

theorem judged_node (s : State) (valid : Bool) : (judged s valid).node = s.node := by
  unfold judged; simp only; split <;> rfl

/-- The end of the read stays in LOAD for a presence pulse, or leaves it for SETUP or SYNC. -/
theorem finishRead_node (strap : Bool) (s : State) :
    (finishRead strap s).node = s.node ∨ (finishRead strap s).node = .setup ∨ (finishRead strap s).node = .sync := by
  unfold finishRead
  simp only
  split
  · exact .inl (judged_node _ _)
  · rw [leaveLoad_node]
    split <;> simp

theorem finishPulse_node (l : Lane) (present strap : Bool) (s : State) :
    (finishPulse l present strap s).node = s.node ∨ (finishPulse l present strap s).node = .setup ∨
      (finishPulse l present strap s).node = .sync := by
  unfold finishPulse
  simp only
  split
  · exact .inl rfl
  · rw [leaveLoad_node]
    split <;> simp

@[simp] theorem enterHoldup_node (s : State) : (enterHoldup s).node = .holdup := by
  unfold enterHoldup startSave; split <;> rfl

theorem retentionChecked_node (s : State) : (retentionChecked s).node = s.node ∨ (retentionChecked s).node = .off := by
  unfold retentionChecked; split
  · exact .inl rfl
  · exact .inr rfl

/-- R153, R165: a taker moves the node state only at a CFGX in SETUP. -/
theorem taker_node (kind : FrameKind) (f : GoodFrame) (t : Time) (s : State) :
    (taker kind f t s).node = s.node ∨
      (kind = .cfgx ∧ s.node = .setup ∧ ((taker kind f t s).node = .load ∨ (taker kind f t s).node = .off)) := by
  by_cases hw : kind = .cfgw
  · subst hw
    simp only [taker, takeCfgw]
    split <;> exact .inl rfl
  · by_cases hx : kind = .cfgx
    · subst hx
      simp only [taker, takeCfgx]
      split
      · next h =>
        simp only [addressed, Bool.and_eq_true, decide_eq_true_eq] at h
        obtain ⟨⟨⟨hsetup, _⟩, _⟩, _⟩ := h
        exact .inr ⟨trivial, hsetup, enterLoad_node s⟩
      · exact .inl rfl
    · exact .inl (taker_apart kind hw hx f t s).node

/-- R152, R165: what a frame of another station does to the node state is among its causes. -/
theorem received_causes (kind : FrameKind) (bits : List Bool) (phase : BitVec 3) (s : State) :
    (effect (received kind bits phase) s).node = s.node ∨
      causes (received kind bits phase) s.node (effect (received kind bits phase) s).node = true := by
  refine received_keeps (P := fun t => t.node = s.node ∨ causes (received kind bits phase) s.node t.node = true) (.inl rfl)
    (fun hlive => ?_) (fun f t _ => ?_)
  · have hn : (enterFault (frameEnded s)).node = .fault := rfl
    rw [hn]
    rcases (live_iff _).1 hlive with h | h <;> rw [h] <;> cases kind <;> exact .inr rfl
  · have hn : (heard (frameEnded s) f).node = s.node := (heard_frameEnded_apart s f).node
    rcases taker_node kind f t (heard (frameEnded s) f) with h | ⟨rfl, hsetup, h⟩
    · exact .inl (h.trans hn)
    · rw [hn] at hsetup
      rcases h with h | h <;> rw [h, hsetup] <;> exact .inr rfl

/-- Settles O3: the commands that move the node state, one by one, against their row of `causes`. -/
theorem nodeStateMovesOnlyOnItsCauses : Obligations.NodeStateMovesOnlyOnItsCauses := by
  intro c s t h
  rw [eq_effect_of_exec h]
  rcases effect_apart_or_moves c s with ha | hm
  · exact .inl ha.node
  cases hm with
  | frame kind bits phase => exact received_causes kind bits phase s
  | saveComplete =>
    show (saveComplete s).node = _ ∨ _
    unfold saveComplete
    split
    · split <;> exact .inl rfl
    · exact .inl rfl
  | configWriteComplete =>
    show (configWriteComplete s).node = _ ∨ _
    unfold configWriteComplete
    split
    · split <;> exact .inl rfl
    · exact .inl rfl
  | coilPulseEnd present strap =>
    show (coilPulseEnd present strap s).node = _ ∨ causes _ _ (coilPulseEnd present strap s).node = true
    unfold coilPulseEnd
    split
    · next l t _ =>
      split
      · next hdue =>
        rcases finishPulse_node l present strap s with h | h | h
        · exact .inl h
        · rw [h, hdue.1]; exact .inr rfl
        · rw [h, hdue.1]; exact .inr rfl
      · exact .inl rfl
    all_goals exact .inl rfl
  | powerOn held =>
    show (powerOn held s).node = _ ∨ causes _ _ (powerOn held s).node = true
    unfold powerOn
    split
    · next hoff => rw [hoff, enterLoad_of_power rfl]; exact .inr rfl
    · exact .inl rfl
  | loadReadComplete strap =>
    show (loadReadComplete strap s).node = _ ∨ causes _ _ (loadReadComplete strap s).node = true
    unfold loadReadComplete
    split
    · split
      · next hdue =>
        rcases finishRead_node strap s with h | h | h
        · exact .inl h
        · rw [h, hdue.1]; exact .inr rfl
        · rw [h, hdue.1]; exact .inr rfl
      · exact .inl rfl
    all_goals exact .inl rfl
  | syncEnd =>
    show (syncEnd s).node = _ ∨ causes _ _ (syncEnd s).node = true
    unfold syncEnd
    split
    · split
      · next hdue => rw [hdue.1]; exact .inr rfl
      · exact .inl rfl
    · exact .inl rfl
  | trackPowerAbsent high =>
    show (trackPowerAbsent high s).node = _ ∨ causes _ _ (trackPowerAbsent high s).node = true
    unfold trackPowerAbsent
    simp only
    split
    · next hn => exact .inl rfl
    iterate 3 next hn => rw [hn]; exact .inr rfl
    iterate 2
      next hn =>
        rcases retentionChecked_node (enterHoldup { s with
          pins := { s.pins with trackPower := false, retentionHigh := high } }) with h | h
        · rw [h, enterHoldup_node, hn]; exact .inr rfl
        · rw [h, hn]; exact .inr rfl
    · next hn =>
      rcases retentionChecked_node { s with
          pins := { s.pins with trackPower := false, retentionHigh := high }, sup := { s.sup with debounce := none } } with h | h
      · exact .inl h
      · rw [h, hn]; exact .inr rfl
  | debounceComplete =>
    show (debounceComplete s).node = _ ∨ causes _ _ (debounceComplete s).node = true
    unfold debounceComplete
    split
    · split
      · next hdue => rw [hdue.1]; exact .inr rfl
      · exact .inl rfl
    · exact .inl rfl
  | retentionLow =>
    show (retentionLow s).node = _ ∨ causes _ _ (retentionLow s).node = true
    unfold retentionLow
    split
    · next hn => rw [hn]; exact .inr rfl
    · exact .inl rfl
  | resetAssert =>
    show (resetAssert s).node = _ ∨ causes _ _ (resetAssert s).node = true
    unfold resetAssert
    split
    · exact .inl rfl
    · next hn =>
      rcases enterLoad_node { s with pins := { s.pins with resetHeld := true } } with h | h <;> rw [h] <;>
        exact .inr (by simpa [causes] using hn)
  | retentionEnds =>
    show (retentionEnds s).node = _ ∨ causes _ _ (retentionEnds s).node = true
    unfold retentionEnds
    split
    · exact .inl rfl
    · next hn => exact .inr (by simpa [causes] using hn)

/-! ## The nonvolatile store (R66, R67, R166) -/

theorem cutWrite_of_none {s : State} (h : s.sup.write = none) : cutWrite s = s := by rw [cutWrite, h]

theorem cutSave_of_none {s : State} (h : s.sup.save = none) : cutSave s = s := by rw [cutSave, h]

theorem cut_of_none {s : State} (hsave : s.sup.save = none) (hwrite : s.sup.write = none) : cutSave (cutWrite s) = s := by
  rw [cutWrite_of_none hwrite, cutSave_of_none hsave]

/-- R161: an entry to LOAD with track power present and no store work under way. -/
theorem enterLoad_uncut {s : State} (hpower : s.pins.trackPower = true) (hsave : s.sup.save = none) (hwrite : s.sup.write = none) :
    enterLoad s = loadEntered s := by
  rw [enterLoad_of_power hpower, cut_of_none hsave hwrite]

theorem judged_nv (s : State) (valid : Bool) : (judged s valid).nv = s.nv := by
  unfold judged; simp only; split <;> rfl

theorem leaveLoad_nv (s : State) (strap valid : Bool) : (leaveLoad s strap valid).nv = s.nv := by
  unfold leaveLoad; simp only; split <;> rfl

theorem finishRead_nv (strap : Bool) (s : State) : (finishRead strap s).nv = s.nv := by
  unfold finishRead
  simp only
  split
  · exact judged_nv _ _
  · exact (leaveLoad_nv _ _ _).trans (judged_nv _ _)

theorem finishPulse_nv (l : Lane) (present strap : Bool) (s : State) : (finishPulse l present strap s).nv = s.nv := by
  unfold finishPulse
  simp only
  split
  · rfl
  · exact leaveLoad_nv _ _ _

/-- Settles O4: of the commands that reach the store or move the node state, those of neither list leave the bytes as they are;
a power-on finds nothing in flight to cut. -/
theorem storeChangesOnlyByItsOwners : Obligations.StoreChangesOnlyByItsOwners := by
  intro c s t hoff hown h
  rw [eq_effect_of_exec h]
  rcases effect_apart_or_moves c s with ha | hm
  · exact ha.nv
  cases hm with
  | frame kind bits phase =>
    have hw : kind ≠ .cfgw := by rintro rfl; exact absurd hown (by simp [writesStore, received])
    have hx : kind ≠ .cfgx := by rintro rfl; exact absurd hown (by simp [writesStore, received])
    exact received_keeps (P := fun t => t.nv = s.nv) rfl (fun _ => rfl)
      (fun f t _ => (taker_apart kind hw hx f t _).nv.trans (heard_frameEnded_apart s f).nv)
  | saveComplete => exact absurd hown (by simp [writesStore])
  | configWriteComplete => exact absurd hown (by simp [writesStore])
  | coilPulseEnd present strap =>
    show (coilPulseEnd present strap s).nv = _
    unfold coilPulseEnd
    split
    · split
      · exact finishPulse_nv _ _ _ _
      · rfl
    all_goals rfl
  | powerOn held =>
    show (powerOn held s).nv = _
    unfold powerOn
    split
    · next hn =>
      obtain ⟨hsave, hwrite⟩ := hoff hn
      rw [enterLoad_uncut (by rfl) (by exact hsave) (by exact hwrite)]
      rfl
    · rfl
  | loadReadComplete strap =>
    show (loadReadComplete strap s).nv = _
    unfold loadReadComplete
    split
    · split
      · exact finishRead_nv _ _
      · rfl
    all_goals rfl
  | syncEnd =>
    show (syncEnd s).nv = _
    unfold syncEnd
    split
    · split <;> rfl
    · rfl
  | trackPowerAbsent high => exact absurd hown (by simp [writesStore])
  | debounceComplete =>
    show (debounceComplete s).nv = _
    unfold debounceComplete
    split
    · split <;> rfl
    · rfl
  | retentionLow => exact absurd hown (by simp [writesStore])
  | resetAssert => exact absurd hown (by simp [writesStore])
  | retentionEnds => exact absurd hown (by simp [writesStore])

end Sys2Proof.Machine
end

/-! # The binding entries: what a command can do to them (R52, R53, R69 to R76) -/

section
namespace Sys2Proof.Machine

open Sys2Proof.Safety

/-! ## Moves of the table -/

/-- What the rules do to the binding entries while the node works: an order set, counted or given back at one entry, a newer
proposal, HEAT, and the loss of the orders at an entry to HOLDUP. -/
inductive EntryMove : CodeTable Binding → CodeTable Binding → Prop
  | standing (t : CodeTable Binding) (c : Car) (x : Standing) (hlawful : orderKept (t.get c) → orderKept { t.get c with standing := x }) :
      EntryMove t (t.set c { t.get c with standing := x })
  | proposal (t : CodeTable Binding) (p : Proposal) (hnewer : p.newer (t.get p.car) = true) : EntryMove t (p.entries t)
  | heat (t : CodeTable Binding) : EntryMove t (t.map Binding.heated)
  | holdup (t : CodeTable Binding) : EntryMove t (t.map Binding.orderless)

/-- Any number of such moves. -/
def EntriesMoved : CodeTable Binding → CodeTable Binding → Prop := Relation.ReflTransGen EntryMove

theorem EntriesMoved.refl (t : CodeTable Binding) : EntriesMoved t t := Relation.ReflTransGen.refl

theorem EntriesMoved.trans {t u v : CodeTable Binding} (h : EntriesMoved t u) (k : EntriesMoved u v) : EntriesMoved t v :=
  Relation.ReflTransGen.trans h k

theorem EntriesMoved.of_eq {t u : CodeTable Binding} (h : u = t) : EntriesMoved t u := h ▸ .refl t

theorem EntryMove.moved {t u : CodeTable Binding} (h : EntryMove t u) : EntriesMoved t u := Relation.ReflTransGen.single h

/-- The table is as R53 and R69 want it. -/
def tableKept (t : CodeTable Binding) : Prop := boundOnce t ∧ ∀ c, orderKept (t.get c)

theorem bindingsKept_iff (s : State) : bindingsKept s ↔ tableKept s.bind.entries := Iff.rfl

/-- R69: an entry without an order. -/
theorem orderKept_empty {b : Binding} (h : b.standing = .empty) : orderKept b := by
  refine ⟨fun _ => h, fun d n hd => ?_⟩
  rw [h] at hd
  cases hd

/-- A table whose handsets are some of another's is as R53 wants it where that is. -/
theorem boundOnce_of_sub {t u : CodeTable Binding} (ht : boundOnce t)
    (h : ∀ c a, (u.get c).handset = some a → (t.get c).handset = some a) : boundOnce u :=
  fun c d a hc hd => ht c d a (h c a hc) (h d a hd)

theorem Binding.heated_handset {b : Binding} {a : HandsetAddr} (h : b.heated.handset = some a) : b.handset = some a := by
  unfold Binding.heated at h
  split at h
  · simp [Binding.freed] at h
  · exact h

theorem Binding.heated_standing (b : Binding) : b.heated.standing = .empty := by
  unfold Binding.heated
  split <;> rfl

theorem Binding.freedFrom_handset {g : Option HandsetAddr} {b : Binding} {a : HandsetAddr} (h : (b.freedFrom g).handset = some a) :
    b.handset = some a ∧ g ≠ some a := by
  unfold Binding.freedFrom at h
  split at h
  · simp [Binding.freed] at h
  · next hf =>
    refine ⟨h, ?_⟩
    rintro rfl
    exact hf ⟨rfl, h⟩

theorem orderKept_freedFrom {g : Option HandsetAddr} {b : Binding} (h : orderKept b) : orderKept (b.freedFrom g) := by
  unfold Binding.freedFrom
  split
  · exact orderKept_empty rfl
  · exact h

/-- R53, R69: the entry of a newer proposal keeps its order only with its handset. -/
theorem orderKept_entry {p : Proposal} {b : Binding} (h : orderKept b) : orderKept (p.entry b) := by
  unfold Proposal.entry
  by_cases hp : p.handset = b.handset
  · rw [if_pos hp]
    exact ⟨fun hn => h.1 (hp ▸ hn), h.2⟩
  · rw [if_neg hp]
    exact orderKept_empty rfl

/-- R53: the table after a newer proposal binds its handset to its car alone. -/
theorem boundOnce_entries {t : CodeTable Binding} (p : Proposal) (h : boundOnce t) : boundOnce (p.entries t) := by
  have hother : ∀ c, c ≠ p.car → (p.entries t).get c = (t.get c).freedFrom p.handset := by
    intro c hc
    rw [Proposal.entries, CodeTable.get_set_ne _ _ hc, CodeTable.get_map]
  have hown : ((p.entries t).get p.car).handset = p.handset := by
    rw [Proposal.entries, CodeTable.get_set_self, Proposal.entry]
  intro c d a hc hd
  by_cases hcp : c = p.car <;> by_cases hdp : d = p.car
  · rw [hcp, hdp]
  · subst hcp
    rw [hown] at hc
    rw [hother d hdp] at hd
    exact absurd hc (Binding.freedFrom_handset hd).2
  · subst hdp
    rw [hown] at hd
    rw [hother c hcp] at hc
    exact absurd hd (Binding.freedFrom_handset hc).2
  · rw [hother c hcp] at hc
    rw [hother d hdp] at hd
    exact h c d a (Binding.freedFrom_handset hc).1 (Binding.freedFrom_handset hd).1

/-- Each move keeps the table as R53 and R69 want it. -/
theorem EntryMove.keeps {t u : CodeTable Binding} (h : EntryMove t u) (ht : tableKept t) : tableKept u := by
  obtain ⟨honce, horder⟩ := ht
  cases h with
  | standing c x hlawful =>
    refine ⟨boundOnce_of_sub honce fun d a hd => ?_, fun d => ?_⟩
    · rw [CodeTable.get_set] at hd
      split at hd
      · next hdc => rw [hdc]; exact hd
      · exact hd
    · rw [CodeTable.get_set]
      split
      · exact hlawful (horder c)
      · exact horder d
  | proposal p hnewer =>
    refine ⟨boundOnce_entries p honce, fun d => ?_⟩
    rw [Proposal.entries, CodeTable.get_set, CodeTable.get_map]
    split
    · exact orderKept_entry (horder p.car)
    · exact orderKept_freedFrom (horder d)
  | heat =>
    refine ⟨boundOnce_of_sub honce fun d a hd => ?_, fun d => ?_⟩
    · rw [CodeTable.get_map] at hd
      exact Binding.heated_handset hd
    · rw [CodeTable.get_map]
      exact orderKept_empty (Binding.heated_standing _)
  | holdup =>
    refine ⟨boundOnce_of_sub honce fun d a hd => ?_, fun d => ?_⟩
    · rw [CodeTable.get_map] at hd
      exact hd
    · rw [CodeTable.get_map]
      exact orderKept_empty rfl

theorem EntriesMoved.keeps {t u : CodeTable Binding} (h : EntriesMoved t u) (ht : tableKept t) : tableKept u := by
  induction h with
  | refl => exact ht
  | tail _ hstep ih => exact hstep.keeps ih

/-- R52: no move lowers a stamp. -/
theorem EntryMove.stamp_le {t u : CodeTable Binding} (h : EntryMove t u) (c : Car) :
    (t.get c).stamp.toNat ≤ (u.get c).stamp.toNat := by
  cases h with
  | standing d x hlawful =>
    rw [CodeTable.get_set]
    split
    · next hcd => rw [hcd]
    · exact Nat.le_refl _
  | proposal p hnewer =>
    rw [Proposal.entries, CodeTable.get_set, CodeTable.get_map]
    split
    · next hcp =>
      subst hcp
      simp only [Proposal.newer, Bool.or_eq_true, Bool.and_eq_true, decide_eq_true_eq] at hnewer
      rcases hnewer with hlt | ⟨heq, _⟩
      · exact Nat.le_of_lt hlt
      · exact Nat.le_of_eq (congrArg BitVec.toNat heq.symm)
    · unfold Binding.freedFrom
      split <;> exact Nat.le_refl _
  | heat =>
    rw [CodeTable.get_map]
    unfold Binding.heated
    split <;> exact Nat.le_refl _
  | holdup =>
    rw [CodeTable.get_map]
    exact Nat.le_refl _

theorem EntriesMoved.stamp_le {t u : CodeTable Binding} (h : EntriesMoved t u) (c : Car) :
    (t.get c).stamp.toNat ≤ (u.get c).stamp.toNat := by
  induction h with
  | refl => exact Nat.le_refl _
  | tail _ hstep ih => exact ih.trans (hstep.stamp_le c)

/-! ## The lawful changes of an order -/

theorem orderKept_countDown {b : Binding} (h : orderKept b) : orderKept { b with standing := b.standing.countDown } := by
  refine ⟨fun hn => by rw [h.1 hn]; rfl, fun d n hd => ?_⟩
  cases hs : b.standing with
  | empty => rw [hs] at hd; cases hd
  | runOut e => rw [hs] at hd; cases hd
  | order e m =>
    have hm := h.2 e m hs
    rw [hs] at hd
    simp only [Standing.countDown] at hd
    split at hd
    · cases hd
    · cases hd; omega

theorem orderKept_restore {b : Binding} (d : Dir) (h : orderKept b) : orderKept { b with standing := b.standing.restore d } := by
  refine ⟨fun hn => by rw [h.1 hn]; rfl, fun e n he => ?_⟩
  cases hs : b.standing with
  | empty => rw [hs] at he; cases he
  | runOut f =>
    rw [hs] at he
    simp only [Standing.restore] at he
    split at he <;> cases he
    omega
  | order f m =>
    have hm := h.2 f m hs
    rw [hs] at he
    simp only [Standing.restore] at he
    split at he <;> cases he <;> omega

theorem orderKept_receive {b : Binding} {o : OrderField} (ho : o.remaining ≤ 7) (x : Outcome) (h : orderKept b) :
    orderKept { b with standing := b.standing.receive o x } := by
  refine ⟨fun hn => by rw [h.1 hn]; rfl, fun e n he => ?_⟩
  cases hs : b.standing with
  | empty => rw [hs] at he; cases he
  | runOut f =>
    rw [hs] at he
    simp only [Standing.receive] at he
    split at he <;> cases he
    omega
  | order f m =>
    rw [hs] at he
    simp only [Standing.receive] at he
    split at he <;> cases he
    omega

theorem orderKept_programmed {b : Binding} {h : HandsetAddr} (hb : b.handset = some h) (d : Dir) {v : Nat} (hv : v ≤ 7) :
    orderKept { b with standing := programmed d v } := by
  refine ⟨fun hn => ?_, fun e n he => ?_⟩
  · simp only [hb] at hn
    cases hn
  · simp only [programmed] at he
    split at he <;> cases he
    omega

/-! ## The operations -/

theorem updateStanding_entries (s : State) (c : Car) (f : Standing → Standing)
    (h : orderKept (s.bind.entries.get c) →
      orderKept { s.bind.entries.get c with standing := f (s.bind.entries.get c).standing }) :
    EntriesMoved s.bind.entries (updateStanding s c f).bind.entries :=
  (EntryMove.standing _ c _ h).moved

theorem restoreOrder_entries (s : State) (c : CarCode) (d : Dir) :
    EntriesMoved s.bind.entries (restoreOrder s c d).bind.entries := by
  unfold restoreOrder
  split
  · exact updateStanding_entries s _ _ (orderKept_restore d)
  · exact .refl _

theorem giveBack_entries (s : State) (g : Grant) : EntriesMoved s.bind.entries (giveBack s g).bind.entries := by
  unfold giveBack
  split
  · exact .refl _
  · exact restoreOrder_entries s _ _

/-- R71: what cancels an order is lawful. -/
theorem pressTaken_entries (s : State) (h : HandsetAddr) : EntriesMoved s.bind.entries (pressTaken s h).bind.entries := by
  unfold pressTaken
  split
  · exact updateStanding_entries s _ _ (fun _ => orderKept_empty rfl)
  · exact .refl _

/-- The car of a handset is bound to it. -/
theorem boundCar_handset {t : CodeTable Binding} {h : HandsetAddr} {c : Car} (hc : boundCar t h = some c) :
    (t.get c).handset = some h := by
  simpa using List.find?_some hc

theorem programTaken_entries (s : State) (h : HandsetAddr) (d : Dir) {v : Nat} (hv : v ≤ 7) :
    EntriesMoved s.bind.entries (programTaken s h d v).bind.entries := by
  unfold programTaken
  split
  · next c hc => exact updateStanding_entries s _ _ (fun _ => orderKept_programmed (boundCar_handset hc) d hv)
  · exact .refl _

theorem applyProposal_entries (s : State) (p : Proposal) : (applyProposal s p).bind.entries = p.entries s.bind.entries := by
  obtain ⟨_, h⟩ := applyProposal_frame s p
  rw [h]

theorem judgeProposal_entries (s : State) (p : Proposal) : EntriesMoved s.bind.entries (judgeProposal s p).bind.entries := by
  unfold judgeProposal
  split
  · next hnewer =>
    rw [applyProposal_entries]
    exact (EntryMove.proposal _ p hnewer).moved
  · exact .refl _

theorem startRun_entries (s : State) (l : Lane) (c : Car) : (startRun s l c).bind.entries = s.bind.entries := by
  obtain ⟨_, _, h⟩ := startRun_frame s l c
  rw [h]

theorem localBind_entries (s : State) (l : Lane) (p : Proposal) : EntriesMoved s.bind.entries (localBind s l p).bind.entries := by
  unfold localBind
  split
  · next hnewer =>
    rw [startRun_entries]
    show EntriesMoved _ (applyProposal s p).bind.entries
    rw [applyProposal_entries]
    exact (EntryMove.proposal _ p hnewer).moved
  · exact .refl _

/-- What a judgement of the local bind condition keeps: nothing is done, or a proposal of the local rule is judged. -/
theorem judgeLocal_keeps {P : State → Prop} {s : State} (hs : P s) (h : s.node.live = true → ∀ l p, P (localBind s l p)) :
    P (judgeLocal s) := by
  unfold judgeLocal
  split
  · next hlive =>
    split
    · split
      · split
        · exact h hlive _ _
        · exact hs
      · exact hs
    · exact hs
  · exact hs

theorem judgeLocal_entries (s : State) : EntriesMoved s.bind.entries (judgeLocal s).bind.entries :=
  judgeLocal_keeps (P := fun t => EntriesMoved s.bind.entries t.bind.entries) (.refl _) (fun _ l p => localBind_entries s l p)

theorem codeReported_entries (s : State) (l : Lane) (c : CarCode) : EntriesMoved s.bind.entries (codeReported s l c).bind.entries := by
  unfold codeReported
  split
  · obtain ⟨_, h⟩ := endRunOnCode_frame s l c
    have := judgeLocal_entries (endRunOnCode s l c)
    rw [h] at this ⊢
    exact this
  · exact .refl _

theorem reportChange_entries (s : State) (l : Lane) (old : Option CarCode) :
    EntriesMoved s.bind.entries (reportChange s l old).bind.entries := by
  unfold reportChange
  split
  · split
    · exact .refl _
    · exact codeReported_entries (occupancyCode s l _) l _
  · exact .refl _

theorem stallEndReported_entries (s : State) (l : Lane) : EntriesMoved s.bind.entries (stallEndReported s l).bind.entries := by
  unfold stallEndReported
  split
  · exact judgeLocal_entries (s.setRun l none)
  · exact .refl _

theorem removeFrame_entries (s : State) (id : Nat) : (removeFrame s id).bind.entries = s.bind.entries := by
  obtain ⟨_, _, _, h⟩ := removeFrame_frame s id
  rw [h]

theorem removeTaken_entries (s : State) (g : Grant) : (removeTaken s g).bind.entries = s.bind.entries := by
  unfold removeTaken
  split
  · exact removeFrame_entries s _
  · rfl

theorem endGrant_entries (s : State) (l : Lane) (g : Grant) (o : Outcome) :
    EntriesMoved s.bind.entries (endGrant s l g o).bind.entries :=
  giveBack_entries ((removeTarget s l).setSlot l none) g

theorem withdraw_entries (s : State) (l : Lane) (o : Outcome) : EntriesMoved s.bind.entries (withdraw s l o).bind.entries := by
  unfold withdraw
  split
  · split
    · next g _ _ =>
      have h := endGrant_entries (removeTaken s g) l g o
      rw [removeTaken_entries] at h
      exact h
    · exact .refl _
  · exact .refl _

theorem abort_entries (s : State) (l : Lane) : EntriesMoved s.bind.entries (abort s l).bind.entries := by
  unfold abort
  split
  · split
    · next g _ _ =>
      have h := endGrant_entries (standDownBlade s l) l g .aborted
      obtain ⟨_, hb⟩ := standDownBlade_frame s l
      rw [hb] at h ⊢
      exact h
    · exact .refl _
  · exact .refl _

/-- What a recheck of one slot keeps: nothing is done, or the grant is withdrawn or aborted. -/
theorem recheckSlot_keeps {P : State → Prop} {r : Option ApproachRecord} {s : State} {l : Lane} (hs : P s)
    (hwithdraw : P (withdraw s l .yielded)) (habort : P (abort s l)) : P (recheckSlot r s l) := by
  unfold recheckSlot
  split
  · exact hs
  · split
    · split
      · exact hwithdraw
      · exact hs
    · split
      · exact habort
      · exact hs
    · exact hs

/-- What every withdrawal and every abort keeps, a recheck of all slots keeps. -/
theorem recheck_keeps {P : State → Prop} (hwithdraw : ∀ s l, P s → P (withdraw s l .yielded)) (habort : ∀ s l, P s → P (abort s l))
    {s : State} (r : Option ApproachRecord) (hs : P s) : P (recheck s r) := by
  unfold recheck
  generalize Lane.all.filter (fun l => decide (l.num ≤ s.working.lanes)) = ls
  induction ls generalizing s with
  | nil => exact hs
  | cons l ls ih => exact ih (recheckSlot_keeps hs (hwithdraw s l hs) (habort s l hs))

theorem recheck_entries (s : State) (r : Option ApproachRecord) : EntriesMoved s.bind.entries (recheck s r).bind.entries :=
  recheck_keeps (P := fun t => EntriesMoved s.bind.entries t.bind.entries) (fun t l h => h.trans (withdraw_entries t l _))
    (fun t l h => h.trans (abort_entries t l)) r (.refl _)

theorem claimNotice_entries (s : State) (a : NodeAddr) (p : PassNotice) (o : Outcome) (t : Time) :
    EntriesMoved s.bind.entries (claimNotice s a p o t).bind.entries := by
  have hentered : EntriesMoved s.bind.entries (recheck (enterClaim s (claimOf a p t)) none).bind.entries := by
    have h := recheck_entries (enterClaim s (claimOf a p t)) none
    obtain ⟨_, _, hc⟩ := enterClaim_frame s (claimOf a p t)
    rw [hc] at h ⊢
    exact h
  unfold claimNotice
  split
  iterate 3
    split
    · exact hentered
    · exact .refl _
  all_goals exact .refl _

theorem approachNotice_entries (s : State) (p : PassNotice) (o : Outcome) (t : Time) :
    EntriesMoved s.bind.entries (approachNotice s p o t).bind.entries := by
  unfold approachNotice
  simp only
  split
  · have h := recheck_entries (enterApproach s (approachRecord s.working p o t)) (some (approachRecord s.working p o t))
    obtain ⟨_, _, hc⟩ := enterApproach_frame s (approachRecord s.working p o t)
    rw [hc] at h ⊢
    exact h
  · exact .refl _

/-! ## Decisions -/

/-- What the ladder keeps: the state stands, or check 3 aborts or withdraws the grant of the lane in. -/
theorem ladder_keeps {P : State → Prop} {s : State} {c : Candidate} (hs : P s) (habort : P (abort s c.record.lane))
    (hwithdraw : P (withdraw s c.record.lane .yielded)) : P (ladder s c).1 := by
  unfold ladder
  simp only
  split
  · exact hs
  · split
    · exact hs
    · split
      · exact hs
      · next s' w hc =>
        show P s'
        unfold check3 at hc
        simp only at hc
        split at hc
        · cases hc; exact hs
        · cases hc
        · split at hc
          · cases hc
          · cases hc; exact habort
        · split at hc
          · cases hc
          · cases hc; exact hwithdraw

theorem ladder_entries (s : State) (c : Candidate) : EntriesMoved s.bind.entries (ladder s c).1.bind.entries :=
  ladder_keeps (P := fun t => EntriesMoved s.bind.entries t.bind.entries) (.refl _) (abort_entries s _) (withdraw_entries s _ _)

theorem settleRequest_frame (s : State) (c : Candidate) (o : Outcome) : ∃ hs, settleRequest s c o = { s with handsets := hs } := by
  unfold settleRequest
  split <;> exact ⟨_, rfl⟩

theorem settleTarget_frame (s : State) (c : Candidate) (d : Decided) : ∃ es h, settleTarget s c d =
    { s with occ := { s.occ with list := es, holds := h } } := by
  unfold settleTarget
  split
  iterate 3 exact enterOccupancy_frame s _
  all_goals exact ⟨_, _, rfl⟩

theorem settleOrder_entries (s : State) (c : Candidate) (o : Outcome) :
    EntriesMoved s.bind.entries (settleOrder s c o).bind.entries := by
  unfold settleOrder
  split
  · split
    · exact updateStanding_entries s _ _ orderKept_countDown
    · exact .refl _
  · exact .refl _

theorem settle_entries (s : State) (c : Candidate) (d : Decided) : EntriesMoved s.bind.entries (settle s c d).bind.entries := by
  have hnotice : ∀ t, (settleNotice t c d).bind = t.bind := by
    intro t
    unfold settleNotice
    split <;> rfl
  have htarget : ∀ t, (settleTarget t c d).bind = t.bind := by
    intro t
    obtain ⟨_, _, h⟩ := settleTarget_frame t c d
    rw [h]
  have h := settleOrder_entries (settleRequest s c d.outcome) c d.outcome
  obtain ⟨_, hr⟩ := settleRequest_frame s c d.outcome
  rw [settle, hnotice, htarget]
  rw [hr] at h ⊢
  exact h

theorem decideRecord_entries (s : State) (r : PassageRecord) : EntriesMoved s.bind.entries (decideRecord s r).bind.entries :=
  (ladder_entries s (candidate s r)).trans (settle_entries _ _ _)

theorem handOver_entries (s : State) (r : PassageRecord) : EntriesMoved s.bind.entries (handOver s r).bind.entries := by
  obtain ⟨_, _, _, ht⟩ := takeRecord_frame s r
  unfold handOver
  split
  · have h := decideRecord_entries (takeRecord s r) r
    rw [ht] at h ⊢
    exact h
  · split
    · rw [ht]; exact .refl _
    · exact .refl _

/-! ## Handset frames -/

/-- R176: a program value is a field of three bits. -/
theorem handsetFrameOf_programValue {chars : List SerialChar} {f : HandsetFrame} (h : handsetFrameOf chars = some f) :
    f.programValue ≤ 7 := by
  unfold handsetFrameOf at h
  split at h
  · simp only at h
    split at h
    · cases h
      exact Nat.lt_succ_iff.1 (BitVec.isLt _)
    · cases h
  · cases h

theorem takePress_entries (s : State) (f : HandsetFrame) (e : HandsetEntry) :
    EntriesMoved s.bind.entries (takePress s f e).bind.entries := by
  unfold takePress
  split
  · exact .refl _
  · exact pressTaken_entries (s.updateHandset f.address _) f.address

theorem takeProgram_entries (s : State) {f : HandsetFrame} (e : HandsetEntry) (hf : f.programValue ≤ 7) :
    EntriesMoved s.bind.entries (takeProgram s f e).bind.entries := by
  unfold takeProgram
  split
  · exact .refl _
  · exact programTaken_entries (s.updateHandset f.address _) f.address _ hf

theorem takeCounts_entries (s : State) {f : HandsetFrame} (e : HandsetEntry) (hf : f.programValue ≤ 7) :
    EntriesMoved s.bind.entries (takeCounts s f e).bind.entries := by
  unfold takeCounts
  split
  · exact .refl _
  · exact (takePress_entries s f e).trans (takeProgram_entries _ e hf)

theorem takeGesture_entries (s : State) (f : HandsetFrame) (e : HandsetEntry) :
    EntriesMoved s.bind.entries (takeGesture s f e).bind.entries := by
  unfold takeGesture
  simp only
  split
  · exact .refl _
  · exact judgeLocal_entries (s.updateHandset f.address _)

theorem removeHandset_entries (s : State) (e : HandsetEntry) : EntriesMoved s.bind.entries (removeHandset s e).bind.entries := by
  unfold removeHandset
  split
  · exact judgeLocal_entries (s.dropHandset e.address)
  · exact .refl _

theorem makeHandsetRoom_entries {s t : State} (h : makeHandsetRoom s = some t) : EntriesMoved s.bind.entries t.bind.entries := by
  unfold makeHandsetRoom at h
  split at h
  · cases h; exact .refl _
  · obtain ⟨e, _, rfl⟩ := Option.map_eq_some_iff.1 h
    exact removeHandset_entries s e

theorem acceptFrame_entries (s : State) {f : HandsetFrame} (hf : f.programValue ≤ 7) :
    EntriesMoved s.bind.entries (acceptFrame s f).bind.entries := by
  unfold acceptFrame
  split
  · next e _ =>
    exact (takeCounts_entries (s.updateHandset f.address (fun x => { x with lastHeard := s.now })) e hf).trans
      (takeGesture_entries _ f e)
  · unfold firstSighting
    split
    · next t ht =>
      refine (makeHandsetRoom_entries ht).trans ?_
      simp only
      split
      · exact judgeLocal_entries { t with handsets := t.handsets ++ [f.firstEntry s.now] }
      · exact .refl _
    · exact .refl _

theorem handsetFrame_entries (levels : List Bool) (span : Nat) (s : State) :
    EntriesMoved s.bind.entries (handsetFrame levels span s).bind.entries := by
  unfold handsetFrame
  split
  · split
    · unfold runCloses
      split
      · next f hf => exact acceptFrame_entries s (handsetFrameOf_programValue hf)
      · exact .refl _
    · exact .refl _
  · exact .refl _

/-! ## The takers of a frame -/

/-- R174: an order count is a field of three bits. -/
theorem decodePass_remaining {x : BitVec 88} {o : OrderField} (h : (decodePass x).order = some o) : o.remaining ≤ 7 := by
  simp only [decodePass] at h
  split at h
  · cases h
    exact Nat.lt_succ_iff.1 (BitVec.isLt _)
  · cases h

theorem orderReceived_entries (s : State) (x : BitVec 88) (o : Outcome) :
    EntriesMoved s.bind.entries (orderReceived s (decodePass x) o).bind.entries := by
  unfold orderReceived
  split
  · next q car hq _ => exact updateStanding_entries s car _ (orderKept_receive (decodePass_remaining hq) o)
  · exact .refl _

theorem passToTables_entries (s : State) (x : BitVec 88) (o : Outcome) :
    EntriesMoved s.bind.entries (passToTables (decodePass x) o s).bind.entries := by
  unfold passToTables
  split
  · rw [passConsumes_eq]
    exact orderReceived_entries s x o
  · exact .refl _

theorem takePass_entries (f : GoodFrame) (t : Time) (s : State) : EntriesMoved s.bind.entries (takePass f t s).bind.entries := by
  unfold takePass
  simp only
  split
  · next o _ =>
    have happroach : EntriesMoved s.bind.entries (passToApproach f (decodePass (payloadWord 88 f.payload)) o t s).bind.entries := by
      unfold passToApproach
      split
      · exact approachNotice_entries s _ o t
      · exact .refl _
    have hclaims : ∀ u, EntriesMoved u.bind.entries (passToClaims f (decodePass (payloadWord 88 f.payload)) o t u).bind.entries := by
      intro u
      unfold passToClaims
      split
      · exact claimNotice_entries u _ _ o t
      · exact .refl _
    exact (happroach.trans (hclaims _)).trans (passToTables_entries _ _ o)
  · exact .refl _

theorem applyHeat_entries (s : State) : EntriesMoved s.bind.entries (applyHeat s).bind.entries := by
  obtain ⟨_, _, h⟩ := applyHeat_frame s
  rw [h]
  exact (EntryMove.heat _).moved

theorem cutWrite_entries (s : State) : (cutWrite s).bind = s.bind := by unfold cutWrite; split <;> rfl

theorem cutSave_entries (s : State) : (cutSave s).bind = s.bind := by unfold cutSave; split <;> rfl

theorem goOff_entries (s : State) : (goOff s).bind.entries = CodeTable.const Binding.fresh := rfl

/-- The entries stand at an entry to LOAD, unless it goes on to OFF. -/
theorem enterLoad_entries (s : State) : (enterLoad s).bind.entries = s.bind.entries ∨
    ((enterLoad s).node = .off ∧ (enterLoad s).bind.entries = CodeTable.const Binding.fresh) := by
  unfold enterLoad powerChecked
  split
  · left
    show (cutSave (cutWrite s)).bind.entries = _
    rw [cutSave_entries, cutWrite_entries]
  · exact .inr ⟨rfl, rfl⟩

/-! ## Every command -/

/-- What a command does to the binding entries: some of the moves; the restore at the end of LOAD's read; or their loss in OFF. -/
def EntriesAfter (s t : State) : Prop :=
  EntriesMoved s.bind.entries t.bind.entries ∨
    (s.node = .load ∧ (t.bind.entries = restored s.nv)) ∨
    (t.node = .off ∧ t.bind.entries = CodeTable.const Binding.fresh)

theorem EntriesAfter.of_eq {s t : State} (h : t.bind.entries = s.bind.entries) : EntriesAfter s t := .inl (.of_eq h)

theorem EntriesAfter.goOff (s u : State) : EntriesAfter s (goOff u) := .inr (.inr ⟨rfl, rfl⟩)

theorem EntriesAfter.enterLoad {s u : State} (h : u.bind.entries = s.bind.entries) : EntriesAfter s (enterLoad u) := by
  rcases enterLoad_entries u with he | he
  · exact .of_eq (he.trans h)
  · exact .inr (.inr he)

theorem EntriesAfter.retentionChecked {s u : State} (h : EntriesAfter s u) : EntriesAfter s (retentionChecked u) := by
  unfold Machine.retentionChecked
  split
  · exact h
  · exact .goOff s u

theorem taker_entries (kind : FrameKind) (f : GoodFrame) (t : Time) {s u : State} (h : u.bind.entries = s.bind.entries) :
    EntriesAfter s (taker kind f t u) := by
  cases kind with
  | pass => exact .inl (h ▸ takePass_entries f t u)
  | bind =>
    simp only [taker, takeBind]
    split
    · next p _ =>
      split
      · exact .inl (h ▸ judgeProposal_entries u p)
      · exact .of_eq h
    · exact .of_eq h
  | heat =>
    simp only [taker, takeHeat]
    split
    · exact .inl (h ▸ applyHeat_entries u)
    · exact .of_eq h
  | join =>
    simp only [taker, takeJoin]
    split
    · obtain ⟨_, _, _, hj⟩ := joinTaken_frame u f.originator
      rw [hj]; exact .of_eq h
    · exact .of_eq h
  | cfgr =>
    simp only [taker, takeCfgr]
    split <;> exact .of_eq h
  | cfgw =>
    simp only [taker, takeCfgw]
    split <;> exact .of_eq h
  | cfgx =>
    simp only [taker, takeCfgx]
    split
    · exact .enterLoad h
    · exact .of_eq h
  | beacon => exact .of_eq h
  | cfgd => exact .of_eq h

theorem judged_bind (s : State) (valid : Bool) : (judged s valid).bind = s.bind := by
  unfold judged; simp only; split <;> rfl

theorem leaveLoad_bind (s : State) (strap valid : Bool) : (leaveLoad s strap valid).bind = s.bind := by
  unfold leaveLoad; simp only; split <;> rfl

theorem finishRead_entries (strap : Bool) (s : State) : (finishRead strap s).bind.entries = restored s.nv := by
  unfold finishRead
  simp only
  split
  · show (judged (readDone s) _).bind.entries = _
    rw [judged_bind]; rfl
  · rw [leaveLoad_bind, judged_bind]; rfl

theorem finishPulse_bind (l : Lane) (present strap : Bool) (s : State) : (finishPulse l present strap s).bind = s.bind := by
  unfold finishPulse
  simp only
  split
  · rfl
  · exact leaveLoad_bind _ _ _

theorem startSave_bind (s : State) : (startSave s).bind = s.bind := by unfold startSave; split <;> rfl

theorem enterHoldup_entries (s : State) : (enterHoldup s).bind.entries = s.bind.entries.map Binding.orderless := by
  rw [enterHoldup, startSave_bind]; rfl

theorem trackPowerAbsent_entries (high : Bool) (s : State) : EntriesAfter s (trackPowerAbsent high s) := by
  unfold trackPowerAbsent
  simp only
  split
  · exact .of_eq rfl
  iterate 3 exact .goOff s _
  iterate 2
    refine EntriesAfter.retentionChecked (.inl ?_)
    rw [enterHoldup_entries]
    exact (EntryMove.holdup _).moved
  exact EntriesAfter.retentionChecked (.of_eq rfl)

theorem received_entries (kind : FrameKind) (bits : List Bool) (phase : BitVec 3) (s : State) :
    EntriesAfter s (effect (received kind bits phase) s) := by
  refine received_keeps (P := EntriesAfter s) (.of_eq rfl) (fun _ => .of_eq rfl) (fun f t _ => taker_entries kind f t ?_)
  obtain ⟨_, _, h⟩ := heard_frameEnded_frame s f
  rw [h]

theorem effect_entries (c : Instr) (s : State) : EntriesAfter s (effect c s) := by
  cases c with
  | irEdge l x y =>
    have hedge : EntriesMoved s.bind.entries (acceptEdge s l y).bind.entries := reportChange_entries (s.setGate l _) l _
    show EntriesAfter s (irEdge l x y s)
    unfold irEdge
    simp only
    split
    · split <;> split
      · exact .inl hedge
      · exact .of_eq rfl
      · exact .inl hedge
      · exact .of_eq rfl
    · exact .of_eq rfl
  | passageClose l =>
    show EntriesAfter s (passageClose l s)
    unfold passageClose
    simp only
    split
    · split
      · split
        · exact .of_eq rfl
        · exact .inl (handOver_entries (s.setGate l _) _)
      · exact .of_eq rfl
    all_goals exact .of_eq rfl
  | stallDeclaration l =>
    show EntriesAfter s (stallDeclaration l s)
    unfold stallDeclaration
    simp only
    split
    · split
      · exact .inl ((handOver_entries (s.setGate l _) _).trans (reportChange_entries _ l none))
      · exact .of_eq rfl
    all_goals exact .of_eq rfl
  | stallEnd l =>
    show EntriesAfter s (stallEnd l s)
    unfold stallEnd
    simp only
    split
    · exact .inl (stallEndReported_entries (occupancyStallEnd (s.setGate l _) l) l)
    · exact .of_eq rfl
  | noticeComplete l =>
    obtain ⟨_, h⟩ := noticeComplete_frame l s
    exact .of_eq (congrArg (·.bind.entries) h)
  | blankingEnd l =>
    obtain ⟨_, h⟩ := blankingEnd_frame l s
    exact .of_eq (congrArg (·.bind.entries) h)
  | handsetFrame levels span => exact .inl (handsetFrame_entries levels span s)
  | handsetStaleRemoval a =>
    show EntriesAfter s (handsetStaleRemoval a s)
    unfold handsetStaleRemoval
    split
    · next e _ =>
      split
      · exact .inl (removeHandset_entries s e)
      · exact .of_eq rfl
    · exact .of_eq rfl
  | requestExpiry a =>
    obtain ⟨_, h⟩ := requestExpiry_frame a s
    exact .of_eq (congrArg (·.bind.entries) h)
  | gestureLapse a =>
    show EntriesAfter s (gestureLapse a s)
    unfold gestureLapse
    split
    · split
      · exact .inl (judgeLocal_entries (s.updateHandset a _))
      · exact .of_eq rfl
    · exact .of_eq rfl
  | noticeRunRepeat l =>
    obtain ⟨_, _, h⟩ := noticeRunRepeat_frame l s
    exact .of_eq (congrArg (·.bind.entries) h)
  | saveComplete =>
    obtain ⟨_, _, _, _, h⟩ := saveComplete_frame s
    exact .of_eq (congrArg (·.bind.entries) h)
  | occupancyExpiry i =>
    obtain ⟨_, h⟩ := occupancyExpiry_frame i s
    exact .of_eq (congrArg (·.bind.entries) h)
  | laneHoldEnd l =>
    obtain ⟨_, h⟩ := laneHoldEnd_frame l s
    exact .of_eq (congrArg (·.bind.entries) h)
  | approachExpiry i =>
    obtain ⟨_, h⟩ := approachExpiry_frame i s
    exact .of_eq (congrArg (·.bind.entries) h)
  | neighbourSilence side => exact .of_eq rfl
  | grantLate l =>
    show EntriesAfter s (grantLate l s)
    unfold grantLate
    split
    · split
      · exact .inl (withdraw_entries s l .late)
      · exact .of_eq rfl
    · exact .of_eq rfl
  | claimExpiry i =>
    obtain ⟨_, h⟩ := claimExpiry_frame i s
    exact .of_eq (congrArg (·.bind.entries) h)
  | coilPulseEnd present strap =>
    show EntriesAfter s (coilPulseEnd present strap s)
    unfold coilPulseEnd
    split
    · split
      · exact .of_eq (congrArg _ (finishPulse_bind _ _ _ s))
      · exact .of_eq rfl
    all_goals exact .of_eq rfl
  | bladeThrow l =>
    obtain ⟨_, h⟩ := bladeThrow_frame l s
    exact .of_eq (congrArg (·.bind.entries) h)
  | bladeRelease l =>
    obtain ⟨_, _, _, h⟩ := bladeRelease_frame l s
    exact .of_eq (congrArg (·.bind.entries) h)
  | coolingEnd l =>
    obtain ⟨_, h⟩ := coolingEnd_frame l s
    exact .of_eq (congrArg (·.bind.entries) h)
  | openCoil l x y =>
    obtain ⟨_, _, _, _, h⟩ := openCoil_frame l x y s
    exact .of_eq (congrArg (·.bind.entries) h)
  | attemptStart phase =>
    obtain ⟨_, _, h⟩ := attemptStart_frame phase s
    exact .of_eq (congrArg (·.bind.entries) h)
  | arbitrationLoss i =>
    obtain ⟨_, h⟩ := arbitrationLoss_frame i s
    exact .of_eq (congrArg (·.bind.entries) h)
  | bitFault i =>
    obtain ⟨_, h⟩ := bitFault_frame i s
    exact .of_eq (congrArg (·.bind.entries) h)
  | attemptComplete =>
    obtain ⟨_, _, _, _, h⟩ := attemptComplete_frame s
    exact .of_eq (congrArg (·.bind.entries) h)
  | frameDeadline i =>
    show EntriesAfter s (frameDeadline i s)
    unfold frameDeadline
    split
    · next f _ =>
      split
      · unfold removeLate
        split
        · split
          · unfold takenRemoved
            split
            · split
              · exact .inl (withdraw_entries s _ .late)
              · exact .of_eq (removeFrame_entries s _)
            · exact .of_eq (removeFrame_entries s _)
          · exact .of_eq (removeFrame_entries s _)
        all_goals exact .of_eq (removeFrame_entries s _)
      · exact .of_eq rfl
    · exact .of_eq rfl
  | beaconTimer =>
    obtain ⟨_, _, _, _, h⟩ := beaconTimer_frame s
    exact .of_eq (congrArg (·.bind.entries) h)
  | frameDiscarded bits =>
    obtain ⟨_, _, h⟩ := frameDiscarded_frame bits s
    exact .of_eq (congrArg (·.bind.entries) h)
  | passReceived bits phase => exact received_entries .pass bits phase s
  | bindReceived bits phase => exact received_entries .bind bits phase s
  | joinReceived bits phase => exact received_entries .join bits phase s
  | heatReceived bits phase => exact received_entries .heat bits phase s
  | beaconReceived bits phase => exact received_entries .beacon bits phase s
  | cfgdReceived bits phase => exact received_entries .cfgd bits phase s
  | cfgrReceived bits phase => exact received_entries .cfgr bits phase s
  | cfgwReceived bits phase => exact received_entries .cfgw bits phase s
  | cfgxReceived bits phase => exact received_entries .cfgx bits phase s
  | configWriteComplete =>
    obtain ⟨_, _, _, _, h⟩ := configWriteComplete_frame s
    exact .of_eq (congrArg (·.bind.entries) h)
  | powerOn held =>
    show EntriesAfter s (powerOn held s)
    unfold powerOn
    split
    · exact .enterLoad rfl
    · exact .of_eq rfl
  | loadReadComplete strap =>
    show EntriesAfter s (loadReadComplete strap s)
    unfold loadReadComplete
    split
    · split
      · next hdue => exact .inr (.inl ⟨hdue.1, finishRead_entries strap s⟩)
      · exact .of_eq rfl
    all_goals exact .of_eq rfl
  | syncEnd =>
    obtain ⟨_, h⟩ := syncEnd_frame s
    exact .of_eq (congrArg (·.bind.entries) h)
  | trackPowerAbsent high => exact trackPowerAbsent_entries high s
  | trackPowerReturn =>
    obtain ⟨_, _, h⟩ := trackPowerReturn_frame s
    exact .of_eq (congrArg (·.bind.entries) h)
  | debounceComplete =>
    show EntriesAfter s (debounceComplete s)
    unfold debounceComplete
    split
    · split <;> exact .of_eq rfl
    · exact .of_eq rfl
  | retentionLow =>
    show EntriesAfter s (retentionLow s)
    unfold retentionLow
    split
    · exact .goOff s s
    · exact .of_eq rfl
  | resetAssert =>
    show EntriesAfter s (resetAssert s)
    unfold resetAssert
    split
    · exact .of_eq rfl
    · exact .enterLoad rfl
  | resetRelease =>
    obtain ⟨_, _, _, h⟩ := resetRelease_frame s
    exact .of_eq (congrArg (·.bind.entries) h)
  | heatPress =>
    show EntriesAfter s (heatPress s)
    unfold heatPress
    split
    · split
      · unfold heatPressTaken
        split
        · exact .inl (applyHeat_entries (queueHeat { s with sup := { s.sup with heatReleased := none } }))
        · exact .of_eq rfl
      · exact .of_eq rfl
    · exact .of_eq rfl
  | tick =>
    obtain ⟨_, _, _, _, _, _, _, _, h⟩ := tick_frame s
    exact .of_eq (congrArg (·.bind.entries) h)
  | levelSettled l x y =>
    obtain ⟨_, h⟩ := levelSettled_frame l x y s
    exact .of_eq (congrArg (·.bind.entries) h)
  | lineReady bits =>
    obtain ⟨_, _, h⟩ := lineReady_frame bits s
    exact .of_eq (congrArg (·.bind.entries) h)
  | coilPulseStart =>
    obtain ⟨_, _, h⟩ := coilPulseStart_frame s
    exact .of_eq (congrArg (·.bind.entries) h)
  | heatInputReleased =>
    obtain ⟨_, h⟩ := heatInputReleased_frame s
    exact .of_eq (congrArg (·.bind.entries) h)
  | retentionEnds =>
    show EntriesAfter s (retentionEnds s)
    unfold retentionEnds
    split
    · exact .of_eq rfl
    · exact .goOff s s

/-! ## The restored table (R53, R177) -/

/-- R177: a record restored BOUND takes no handset that is taken. -/
theorem restoreRecord_handset {taken : List HandsetAddr} {r : BitVec 40} {h : HandsetAddr}
    (hr : (restoreRecord taken r).handset = some h) : h ∉ taken := by
  simp only [restoreRecord] at hr
  split at hr
  · next hc =>
    cases hr
    simp only [Bool.and_eq_true, Bool.not_eq_true', List.contains_eq_mem, decide_eq_false_iff_not] at hc
    exact hc.2
  · cases hr

/-- R177: no restored entry takes a handset that was taken before, and no two take one. -/
theorem restoreRecords_handsets (rs : List (BitVec 40)) (taken : List HandsetAddr) :
    (∀ b ∈ restoreRecords taken rs, ∀ h, b.handset = some h → h ∉ taken) ∧
      (restoreRecords taken rs).Pairwise (fun a b => ∀ h, a.handset = some h → b.handset ≠ some h) := by
  induction rs generalizing taken with
  | nil => simp [restoreRecords]
  | cons r rest ih =>
    obtain ⟨hout, hpair⟩ := ih (match (restoreRecord taken r).handset with | some h => h :: taken | none => taken)
    have hgrown : ∀ b ∈ (restoreRecords taken (r :: rest)).tail, ∀ h, b.handset = some h →
        h ∉ taken ∧ (restoreRecord taken r).handset ≠ some h := by
      intro b hb h hh
      have hnot := hout b hb h hh
      cases hr : (restoreRecord taken r).handset with
      | none => simpa [hr] using hnot
      | some a =>
        simp only [hr, List.mem_cons, not_or] at hnot
        exact ⟨hnot.2, by simpa using fun e => hnot.1 e.symm⟩
    constructor
    · intro b hb h hh
      rcases List.mem_cons.1 hb with rfl | hb
      · exact restoreRecord_handset hh
      · exact (hgrown b hb h hh).1
    · refine List.pairwise_cons.2 ⟨fun b hb h hh hbh => ?_, hpair⟩
      exact (hgrown b hb h hbh).2 hh

theorem tableKept_restoreEntries (records : CodeTable (BitVec 40)) : tableKept (restoreEntries records) := by
  have hpair := (restoreRecords_handsets records.cells []).2
  have hlt : ∀ c d : Car, c < d → ∀ h, ((restoreEntries records).get c).handset = some h →
      ((restoreEntries records).get d).handset ≠ some h :=
    fun c d hcd => List.pairwise_iff_getElem.1 hpair c.val d.val _ _ hcd
  refine ⟨fun c d h hc hd => ?_, fun c => orderKept_empty ?_⟩
  · rcases lt_trichotomy c d with hcd | hcd | hcd
    · exact absurd hd (hlt c d hcd h hc)
    · exact hcd
    · exact absurd hc (hlt d c hcd h hd)
  · have hmem : (restoreEntries records).get c ∈ restoreRecords [] records.cells := List.getElem_mem _
    have hall : ∀ (rs : List (BitVec 40)) (taken : List HandsetAddr), ∀ b ∈ restoreRecords taken rs, b.standing = .empty := by
      intro rs
      induction rs with
      | nil => simp [restoreRecords]
      | cons r rest ih =>
        intro taken b hb
        rcases List.mem_cons.1 hb with rfl | hb
        · rfl
        · exact ih _ b hb
    exact hall _ _ _ hmem

theorem tableKept_fresh : tableKept (CodeTable.const Binding.fresh) := by
  refine ⟨fun c d h hc _ => ?_, fun c => ?_⟩
  · rw [CodeTable.get_const] at hc
    cases hc
  · rw [CodeTable.get_const]
    exact orderKept_empty rfl

theorem tableKept_restored (nv : Nv) : tableKept (restored nv) := by
  unfold restored
  split
  · exact tableKept_restoreEntries _
  · exact tableKept_fresh

/-- Settles O7: each move of the table keeps it lawful, and the restored table and the fresh one are lawful. -/
theorem bindingsInvariantKept : Obligations.BindingsInvariantKept := by
  refine step_keeps (fun s q h => h) (fun c s hs => ?_)
  rcases effect_entries c s with h | ⟨_, h⟩ | ⟨_, h⟩
  · exact h.keeps hs
  · rw [bindingsKept_iff, h]
    exact tableKept_restored s.nv
  · rw [bindingsKept_iff, h]
    exact tableKept_fresh

/-- Settles O30: no move lowers a stamp, and what replaces the table happens in LOAD or goes to OFF. -/
theorem stampsNeverDecreaseOutsideLoad : Obligations.StampsNeverDecreaseOutsideLoad := by
  intro c s t car h hload _ hoff
  rw [eq_effect_of_exec h] at hoff ⊢
  rcases effect_entries c s with h | ⟨hn, _⟩ | ⟨hn, _⟩
  · exact h.stamp_le car
  · exact absurd hn hload
  · exact absurd hn hoff

end Sys2Proof.Machine
end

/-! # The gates: off where they do not work, dark but at a stall (R18, R30, R31, R33, R34) -/

section
namespace Sys2Proof.Machine

open Sys2Proof.Safety

/-- What `gatesKept` asks of one gate. -/
def gateKept (live works : Bool) (g : Gate) : Prop :=
  (works = false → g = Gate.off) ∧
    (g.waiting.isSome = true → g.sending.isSome = true) ∧
    (g.sending.isSome = true → live = true ∧ g.isStalled = true ∧ g.blanking.isSome = true) ∧
    (g.blanking.isSome = true → g.isStalled = true ∨ g.isIdle = true)

theorem gatesKept_iff (s : State) : gatesKept s ↔ ∀ l, gateKept s.node.live (gateWorks s l) (s.gates.get l) := Iff.rfl

theorem gateKept_off (live works : Bool) : gateKept live works Gate.off := by
  simp [gateKept, Gate.off]

/-- A gate with no notice and no blanking, where it works. -/
theorem gateKept_dark {live works : Bool} {g : Gate} (hworks : works = true) (hsending : g.sending = none)
    (hwaiting : g.waiting = none) (hblanking : g.blanking = none) : gateKept live works g := by
  simp [gateKept, hworks, hsending, hwaiting, hblanking]

/-- Another writing of the state. -/
theorem gatesKept_of_eq {s t : State} (h : s = t) (ht : gatesKept t) : gatesKept s := h ▸ ht

theorem gatesKept_of_off {s : State} (h : s.gates = PerLane.const Gate.off) : gatesKept s := by
  intro l
  rw [h, PerLane.get_const]
  exact gateKept_off _ _

/-- R18: outside SYNC, RUN and FAULT every gate is off. -/
theorem gates_eq_off {s : State} (hs : gatesKept s) (h : s.node.watching = false) : s.gates = PerLane.const Gate.off :=
  PerLane.ext_get fun l => by
    rw [PerLane.get_const]
    exact (hs l).1 (by simp [gateWorks, h])

theorem gatesKept_setGate {s : State} {l : Lane} {g : Gate} (hs : gatesKept s)
    (hg : gateKept s.node.live (gateWorks s l) g) : gatesKept (s.setGate l g) := by
  intro m
  show gateKept s.node.live (gateWorks s m) ((s.gates.set l g).get m)
  rw [PerLane.get_set]
  split
  · next hm => rw [hm]; exact hg
  · exact hs m

/-- A gate that is not off works. -/
theorem works_of_ne_off {live works : Bool} {g : Gate} (hg : gateKept live works g) (h : g ≠ Gate.off) : works = true := by
  cases works with
  | true => rfl
  | false => exact absurd (hg.1 rfl) h

/-! ## The emitter -/

theorem ne_off_of_isStalled {g : Gate} (h : g.isStalled = true) : g ≠ Gate.off := by
  rintro rfl
  exact absurd h (by decide)

theorem Gate.startNotice_isStalled (g : Gate) (now : Time) (n : Notice) : (g.startNotice now n).isStalled = g.isStalled := rfl

/-- R31, R33: a request at a gate in STALL, in SYNC or RUN. -/
theorem gateKept_request {works : Bool} {g : Gate} (hg : gateKept true works g) (h : g.isStalled = true) (now : Time) (n : Notice) :
    gateKept true works (g.request now n) := by
  have hworks := works_of_ne_off hg (ne_off_of_isStalled h)
  obtain ⟨_, hwait, hsend, _⟩ := hg
  unfold Gate.request
  split
  · next d hd =>
    have hsome : g.sending.isSome = true := by rw [hd]; rfl
    exact ⟨fun hf => absurd (hworks.symm.trans hf) (by decide), fun _ => hsome, hsend, fun _ => .inl h⟩
  · exact ⟨fun hf => absurd (hworks.symm.trans hf) (by decide), fun _ => rfl, fun _ => ⟨rfl, h, rfl⟩, fun _ => .inl h⟩

theorem gateKept_requestNext {works : Bool} {g : Gate} (hg : gateKept true works g) (h : g.isStalled = true) (now : Time)
    (n : Notice) : gateKept true works (g.requestNext now n) := by
  have hworks := works_of_ne_off hg (ne_off_of_isStalled h)
  obtain ⟨_, hrest⟩ := gateKept_request hg h now n
  exact ⟨fun hf => absurd (hworks.symm.trans hf) (by decide), hrest⟩

theorem gatesKept_requestNotice {s : State} (hs : gatesKept s) (l : Lane) (n : Notice) : gatesKept (requestNotice s l n) := by
  unfold requestNotice
  split
  · next h =>
    obtain ⟨hlive, hstalled⟩ := Bool.and_eq_true_iff.1 h
    have hg := hs l
    rw [hlive] at hg
    exact gatesKept_setGate hs (hlive ▸ gateKept_request hg hstalled s.now n)
  · exact hs

theorem gatesKept_requestNext {s : State} (hs : gatesKept s) (l : Lane) (n : Notice) : gatesKept (requestNext s l n) := by
  unfold requestNext
  split
  · next h =>
    obtain ⟨hlive, hstalled⟩ := Bool.and_eq_true_iff.1 h
    have hg := hs l
    rw [hlive] at hg
    exact gatesKept_setGate hs (hlive ▸ gateKept_requestNext hg hstalled s.now n)
  · exact hs

theorem gatesKept_noticeComplete {s : State} (hs : gatesKept s) (l : Lane) : gatesKept (noticeComplete l s) := by
  unfold noticeComplete
  split
  · next d hd =>
    split
    · have hg := hs l
      have hsome : (s.gates.get l).sending.isSome = true := by rw [hd]; rfl
      obtain ⟨hlive, hstalled, hblank⟩ := hg.2.2.1 hsome
      have hworks := works_of_ne_off hg (ne_off_of_isStalled hstalled)
      refine gatesKept_setGate hs ?_
      unfold Gate.completeNotice
      split
      · exact ⟨fun hf => absurd (hworks.symm.trans hf) (by decide), fun hw => absurd hw (by simp),
          fun _ => ⟨hlive, hstalled, rfl⟩, fun _ => .inl hstalled⟩
      · next hw =>
        exact ⟨fun hf => absurd (hworks.symm.trans hf) (by decide), fun hs => absurd hs (by simp [hw]),
          fun hs => absurd hs (by simp), fun _ => .inl hstalled⟩
    · exact hs
  · exact hs

theorem gatesKept_blankingEnd {s : State} (hs : gatesKept s) (l : Lane) : gatesKept (blankingEnd l s) := by
  unfold blankingEnd
  simp only
  split
  · next h =>
    simp only [Bool.and_eq_true, Option.isNone_iff_eq_none] at h
    obtain ⟨hsend, hdue⟩ := h
    have hg := hs l
    have hne : s.gates.get l ≠ Gate.off := by
      intro e
      rw [e] at hdue
      exact absurd hdue (by simp [Gate.off, hasArrived])
    have hwait : (s.gates.get l).waiting = none := by
      by_contra hw
      have := hg.2.1 (Option.isSome_iff_ne_none.2 hw)
      rw [hsend] at this
      exact absurd this (by decide)
    exact gatesKept_setGate hs (gateKept_dark (works_of_ne_off hg hne) hsend hwait rfl)
  · exact hs

/-! ## Bindings and reports -/

theorem gatesKept_localBind {s : State} (hs : gatesKept s) (l : Lane) (p : Proposal) : gatesKept (localBind s l p) := by
  unfold localBind
  split
  · obtain ⟨hsets, h⟩ := applyProposal_frame s p
    have happlied : gatesKept (queueLiveBind (applyProposal s p) p.car) := by rw [h]; exact hs
    exact gatesKept_requestNotice happlied l _
  · exact hs

theorem gatesKept_judgeLocal {s : State} (hs : gatesKept s) : gatesKept (judgeLocal s) :=
  judgeLocal_keeps hs (fun _ l p => gatesKept_localBind hs l p)

theorem gatesKept_reportChange {s : State} (hs : gatesKept s) (l : Lane) (old : Option CarCode) : gatesKept (reportChange s l old) := by
  unfold reportChange
  split
  · next c _ =>
    split
    · exact hs
    · unfold reportCode codeReported
      split
      · obtain ⟨_, h⟩ := endRunOnCode_frame (occupancyCode s l c) l c
        refine gatesKept_judgeLocal ?_
        rw [h]; exact hs
      · exact hs
  · exact hs

theorem gatesKept_stallEndReported {s : State} (hs : gatesKept s) (l : Lane) : gatesKept (stallEndReported s l) := by
  unfold stallEndReported
  split
  · exact gatesKept_judgeLocal (s := s.setRun l none) hs
  · exact hs

theorem gatesKept_handOver {s : State} (hs : gatesKept s) (r : PassageRecord) : gatesKept (handOver s r) := by
  obtain ⟨_, _, _, _, _, _, _, _, _, _, _, h⟩ := handOver_frame s r
  rw [h]; exact hs

/-! ## Edges, passages and stalls -/

theorem Gate.edge_sending (g : Gate) (now : Time) (lit : Bool) : (g.edge now lit).sending = g.sending := by
  unfold Gate.edge
  split <;> rfl

theorem Gate.edge_waiting (g : Gate) (now : Time) (lit : Bool) : (g.edge now lit).waiting = g.waiting := by
  unfold Gate.edge
  split <;> rfl

theorem Gate.edge_blanking (g : Gate) (now : Time) (lit : Bool) : (g.edge now lit).blanking = g.blanking := by
  unfold Gate.edge
  split <;> rfl

theorem Gate.reblanked_fields (g : Gate) : g.reblanked.sending = g.sending ∧ g.reblanked.waiting = g.waiting ∧
    g.reblanked.blanking = g.blanking ∧ g.reblanked.state = g.state := by
  unfold Gate.reblanked
  split <;> exact ⟨rfl, rfl, rfl, rfl⟩

theorem Gate.unblanked_fields (g : Gate) : g.unblanked.sending = g.sending ∧ g.unblanked.waiting = g.waiting ∧
    g.unblanked.blanking = g.blanking ∧ g.unblanked.state = g.state := by
  unfold Gate.unblanked
  split <;> exact ⟨rfl, rfl, rfl, rfl⟩

/-- An accepted edge leaves emitter and blanking as they are. -/
theorem Gate.accept_emitter (g : Gate) (now : Time) (lit : Bool) : (g.accept now lit).sending = g.sending ∧
    (g.accept now lit).waiting = g.waiting ∧ (g.accept now lit).blanking = g.blanking := by
  obtain ⟨hsend, hwait, hblank, _⟩ := g.unblanked_fields
  unfold Gate.accept
  simp only
  obtain ⟨rsend, rwait, rblank, _⟩ :=
    Gate.reblanked_fields (Gate.edge { g.unblanked with level := some lit, previous := some lit } now lit)
  rw [rsend, rwait, rblank, Gate.edge_sending, Gate.edge_waiting, Gate.edge_blanking]
  exact ⟨hsend, hwait, hblank⟩

theorem isStalled_of_codedStall {g : Gate} {c : CarCode} (h : g.codedStall = some c) : g.isStalled = true := by
  unfold Gate.codedStall at h
  unfold Gate.isStalled
  split at h
  · rfl
  all_goals cases h

/-- R59: a code change is read in a stall. -/
theorem accept_isStalled_of_changesCode {g : Gate} {now : Time} {lit : Bool} (h : g.changesCode now lit = true) :
    (g.accept now lit).isStalled = true := by
  unfold Gate.changesCode at h
  split at h
  · next hc => exact isStalled_of_codedStall hc
  · cases h

theorem gatesKept_acceptEdge {s : State} (hs : gatesKept s) (l : Lane) (lit : Bool) (hworks : gateWorks s l = true)
    (h : (s.gates.get l).blanking = none ∨ ((s.gates.get l).accept s.now lit).isStalled = true) : gatesKept (acceptEdge s l lit) := by
  obtain ⟨esend, ewait, eblank⟩ := (s.gates.get l).accept_emitter s.now lit
  obtain ⟨_, hwait, hsend, _⟩ := hs l
  refine gatesKept_reportChange (gatesKept_setGate hs ?_) l _
  refine ⟨fun hf => absurd (hworks.symm.trans hf) (by decide), ?_, ?_, ?_⟩
  · rw [esend, ewait]; exact hwait
  · rw [esend, eblank]
    intro hd
    obtain ⟨hlive, _, hblank⟩ := hsend hd
    rcases h with h | h
    · rw [h] at hblank
      exact absurd hblank (by decide)
    · exact ⟨hlive, h, hblank⟩
  · rw [eblank]
    intro hb
    rcases h with h | h
    · rw [h] at hb
      exact absurd hb (by decide)
    · exact .inl h

theorem gatesKept_irEdge {s : State} (hs : gatesKept s) (l : Lane) (x y : Bool) : gatesKept (irEdge l x y s) := by
  unfold irEdge
  simp only
  split
  · next hworks =>
    split
    · split
      · next h =>
        exact gatesKept_acceptEdge hs l y hworks (.inr (accept_isStalled_of_changesCode (Bool.and_eq_true_iff.1 h).2))
      · exact hs
    · next hb =>
      have hnone : (s.gates.get l).blanking = none := by simpa using hb
      split
      · exact gatesKept_acceptEdge hs l y hworks (.inl hnone)
      · obtain ⟨_, hrest⟩ := hs l
        exact gatesKept_setGate hs ⟨fun hf => absurd (hworks.symm.trans hf) (by decide), hrest⟩
  · exact hs

/-- R33: no gate with an open passage has a notice or blanks. -/
theorem dark_of_open {live works : Bool} {g : Gate} {p : Passage} (hg : gateKept live works g) (h : g.state = .open p) :
    works = true ∧ g.sending = none ∧ g.waiting = none ∧ g.blanking = none := by
  have hstalled : g.isStalled = false := by simp [Gate.isStalled, h]
  have hidle : g.isIdle = false := by simp [Gate.isIdle, h]
  have hne : g ≠ Gate.off := by
    rintro rfl
    cases h
  have hsend : g.sending = none := by
    by_contra hd
    have := (hg.2.2.1 (Option.isSome_iff_ne_none.2 hd)).2.1
    rw [hstalled] at this
    cases this
  have hwait : g.waiting = none := by
    by_contra hd
    have := hg.2.1 (Option.isSome_iff_ne_none.2 hd)
    rw [hsend] at this
    cases this
  have hblank : g.blanking = none := by
    by_contra hd
    have := hg.2.2.2 (Option.isSome_iff_ne_none.2 hd)
    rw [hstalled, hidle] at this
    simp at this
  exact ⟨works_of_ne_off hg hne, hsend, hwait, hblank⟩

theorem gatesKept_passageClose {s : State} (hs : gatesKept s) (l : Lane) : gatesKept (passageClose l s) := by
  unfold passageClose
  simp only
  split
  · next p hp =>
    split
    · obtain ⟨hworks, hsend, hwait, hblank⟩ := dark_of_open (hs l) hp
      have hidled : gatesKept (s.setGate l (s.gates.get l).idled) := gatesKept_setGate hs (gateKept_dark hworks hsend hwait hblank)
      split
      · exact hidled
      · exact gatesKept_handOver hidled _
    · exact hs
  all_goals exact hs

theorem gatesKept_stallDeclaration {s : State} (hs : gatesKept s) (l : Lane) : gatesKept (stallDeclaration l s) := by
  unfold stallDeclaration
  simp only
  split
  · next p hp =>
    split
    · obtain ⟨hworks, hsend, hwait, hblank⟩ := dark_of_open (hs l) hp
      have hstalled : gatesKept (s.setGate l ((s.gates.get l).stalled p)) :=
        gatesKept_setGate hs (gateKept_dark hworks hsend hwait hblank)
      exact gatesKept_reportChange (gatesKept_handOver hstalled _) l none
    · exact hs
  all_goals exact hs

theorem gatesKept_stallEnd {s : State} (hs : gatesKept s) (l : Lane) : gatesKept (stallEnd l s) := by
  unfold stallEnd
  simp only
  split
  · next h =>
    have hworks := works_of_ne_off (hs l) (ne_off_of_isStalled (Bool.and_eq_true_iff.1 h).1)
    have hidled : gatesKept (s.setGate l (s.gates.get l).idled.stopNotice) :=
      gatesKept_setGate hs ⟨fun hf => absurd (hworks.symm.trans hf) (by decide), fun hw => absurd hw (by simp [Gate.stopNotice]),
        fun hw => absurd hw (by simp [Gate.stopNotice]), fun _ => .inr rfl⟩
    exact gatesKept_stallEndReported (s := occupancyStallEnd (s.setGate l (s.gates.get l).idled.stopNotice) l) hidled l
  · exact hs

theorem gatesKept_noticeRunRepeat {s : State} (hs : gatesKept s) (l : Lane) : gatesKept (noticeRunRepeat l s) := by
  unfold noticeRunRepeat
  split
  · split
    · exact gatesKept_requestNext hs l _
    · exact hs
  · exact hs

theorem gatesKept_levelSettled {s : State} (hs : gatesKept s) (l : Lane) (x y : Bool) : gatesKept (levelSettled l x y s) := by
  unfold levelSettled
  simp only
  split
  · next h =>
    have hworks := (Bool.and_eq_true_iff.1 h).1
    obtain ⟨_, hrest⟩ := hs l
    exact gatesKept_setGate hs ⟨fun hf => absurd (hworks.symm.trans hf) (by decide), hrest⟩
  · exact hs

theorem Gate.tick_isStalled (now : Time) (g : Gate) : (g.tick now).isStalled = g.isStalled := by
  unfold Gate.isStalled Gate.tick
  cases g.state <;> rfl

theorem Gate.tick_isIdle (now : Time) (g : Gate) : (g.tick now).isIdle = g.isIdle := by
  unfold Gate.isIdle Gate.tick
  cases g.state <;> rfl

theorem gateKept_tick {live works : Bool} {g : Gate} (hg : gateKept live works g) (now : Time) : gateKept live works (g.tick now) := by
  obtain ⟨hoff, hwait, hsend, hblank⟩ := hg
  refine ⟨fun hf => by rw [hoff hf]; rfl, hwait, ?_, ?_⟩
  · rw [Gate.tick_isStalled]; exact hsend
  · rw [Gate.tick_isStalled, Gate.tick_isIdle]; exact hblank

theorem gatesKept_tick {s : State} (hs : gatesKept s) : gatesKept (tick s) := by
  unfold tick
  split
  · exact hs
  · intro l
    show gateKept s.node.live (gateWorks s l) ((s.gates.map (Gate.tick (Time.plus s.now 1))).get l)
    rw [PerLane.get_map]
    exact gateKept_tick (hs l) _

/-! ## Handsets -/

theorem gatesKept_removeHandset {s : State} (hs : gatesKept s) (e : HandsetEntry) : gatesKept (removeHandset s e) := by
  unfold removeHandset
  split
  · exact gatesKept_judgeLocal (s := s.dropHandset e.address) hs
  · exact hs

/-- Counts write the handset table and the binding entries. -/
theorem takeCounts_frame (s : State) (f : HandsetFrame) (e : HandsetEntry) : ∃ hs es, takeCounts s f e =
    { s with handsets := hs, bind := { s.bind with entries := es } } := by
  unfold takeCounts
  split
  · exact ⟨_, _, rfl⟩
  · have hpress : ∃ hs es, takePress s f e = { s with handsets := hs, bind := { s.bind with entries := es } } := by
      unfold takePress pressTaken
      split
      · exact ⟨_, _, rfl⟩
      · split <;> exact ⟨_, _, rfl⟩
    obtain ⟨_, _, hpress⟩ := hpress
    rw [hpress]
    unfold takeProgram programTaken
    split
    · exact ⟨_, _, rfl⟩
    · split <;> exact ⟨_, _, rfl⟩

theorem gatesKept_acceptFrame {s : State} (hs : gatesKept s) (f : HandsetFrame) : gatesKept (acceptFrame s f) := by
  unfold acceptFrame
  split
  · next e _ =>
    unfold knownFrame takeGesture
    obtain ⟨_, _, h⟩ := takeCounts_frame (s.updateHandset f.address (fun x => { x with lastHeard := s.now })) f e
    rw [h]
    simp only
    split
    · exact hs
    · exact gatesKept_judgeLocal (by exact hs)
  · unfold firstSighting
    split
    · next t ht =>
      have hroom : gatesKept t := by
        unfold makeHandsetRoom at ht
        split at ht
        · cases ht; exact hs
        · obtain ⟨e, _, rfl⟩ := Option.map_eq_some_iff.1 ht
          exact gatesKept_removeHandset hs e
      simp only
      split
      · exact gatesKept_judgeLocal (by exact hroom)
      · exact hroom
    · exact hs

theorem gatesKept_handsetFrame {s : State} (hs : gatesKept s) (levels : List Bool) (span : Nat) :
    gatesKept (handsetFrame levels span s) := by
  unfold handsetFrame
  split
  · split
    · unfold runCloses
      split
      · exact gatesKept_acceptFrame hs _
      · exact hs
    · exact hs
  · exact hs

/-! ## The node states -/

theorem gatesKept_enterFault {s : State} (hs : gatesKept s) (hlive : s.node.live = true) : gatesKept (enterFault (frameEnded s)) := by
  have hworks : ∀ l, gateWorks (enterFault (frameEnded s)) l = gateWorks s l := by
    intro l
    show (true && decide (l.num ≤ s.working.lanes)) = gateWorks s l
    unfold gateWorks
    rcases (live_iff _).1 hlive with h | h <;> rw [h] <;> rfl
  intro l
  rw [hworks]
  show gateKept false (gateWorks s l) ((s.gates.map Gate.stopNotice).get l)
  rw [PerLane.get_map]
  obtain ⟨hoff, _, _, hblank⟩ := hs l
  refine ⟨fun hf => by rw [hoff hf]; rfl, fun hw => absurd hw (by simp [Gate.stopNotice]),
    fun hw => absurd hw (by simp [Gate.stopNotice]), fun hb => ?_⟩
  have hb' : (s.gates.get l).blanking.isSome = true := by
    simp only [Gate.stopNotice] at hb
    split at hb
    · cases hb
    · exact hb
  exact hblank hb'

theorem gatesKept_goOff (s : State) : gatesKept (goOff s) := gatesKept_of_off rfl

theorem gatesKept_enterLoad (s : State) : gatesKept (enterLoad s) := by
  unfold enterLoad powerChecked
  split
  · exact gatesKept_of_off rfl
  · exact gatesKept_goOff _

theorem gatesKept_enterSync (s : State) : gatesKept (enterSync s) := gatesKept_of_off rfl

theorem gatesKept_enterHoldup (s : State) : gatesKept (enterHoldup s) := by
  unfold enterHoldup startSave
  split <;> exact gatesKept_of_off rfl

theorem gatesKept_leaveLoad {s : State} (h : s.gates = PerLane.const Gate.off) (strap valid : Bool) :
    gatesKept (leaveLoad s strap valid) := by
  unfold leaveLoad
  simp only
  split
  · exact gatesKept_of_off h
  · exact gatesKept_enterSync _

theorem judged_gates (s : State) (valid : Bool) : (judged s valid).gates = s.gates := by
  unfold judged; simp only; split <;> rfl

theorem gatesKept_finishRead {s : State} (h : s.gates = PerLane.const Gate.off) (strap : Bool) : gatesKept (finishRead strap s) := by
  have hjudged : ∀ valid, (judged (readDone s) valid).gates = PerLane.const Gate.off := fun valid => by
    rw [judged_gates]; exact h
  unfold finishRead
  simp only
  split
  · exact gatesKept_of_off (hjudged _)
  · exact gatesKept_leaveLoad (hjudged _) _ _

theorem gatesKept_finishPulse {s : State} (h : s.gates = PerLane.const Gate.off) (l : Lane) (present strap : Bool) :
    gatesKept (finishPulse l present strap s) := by
  unfold finishPulse
  simp only
  split
  · exact gatesKept_of_off h
  · exact gatesKept_leaveLoad (by exact h) _ _

theorem gatesKept_retentionChecked {s : State} (hs : gatesKept s) : gatesKept (retentionChecked s) := by
  unfold retentionChecked
  split
  · exact hs
  · exact gatesKept_goOff s

theorem gatesKept_taker {s : State} (hs : gatesKept s) (kind : FrameKind) (f : GoodFrame) (t : Time) : gatesKept (taker kind f t s) := by
  cases kind with
  | pass =>
    obtain ⟨_, _, _, _, _, _, _, _, _, _, h⟩ := takePass_frame f t s
    simp only [taker]; rw [h]; exact hs
  | bind =>
    simp only [taker, takeBind]
    split
    · next p _ =>
      split
      · obtain ⟨_, _, _, h⟩ := judgeProposal_frame s p
        rw [h]; exact hs
      · exact hs
    · exact hs
  | heat =>
    simp only [taker, takeHeat]
    split
    · obtain ⟨_, _, h⟩ := applyHeat_frame s
      rw [h]; exact hs
    · exact hs
  | join =>
    simp only [taker, takeJoin]
    split
    · obtain ⟨_, _, _, h⟩ := joinTaken_frame s f.originator
      rw [h]; exact hs
    · exact hs
  | cfgr =>
    simp only [taker, takeCfgr]
    split <;> exact hs
  | cfgw =>
    simp only [taker, takeCfgw]
    split <;> exact hs
  | cfgx =>
    simp only [taker, takeCfgx]
    split
    · exact gatesKept_enterLoad s
    · exact hs
  | beacon => exact hs
  | cfgd => exact hs

theorem gatesKept_received {s : State} (hs : gatesKept s) (kind : FrameKind) (bits : List Bool) (phase : BitVec 3) :
    gatesKept (effect (received kind bits phase) s) := by
  refine received_keeps hs (gatesKept_enterFault hs) (fun f t _ => gatesKept_taker ?_ kind f t)
  obtain ⟨_, _, h⟩ := heard_frameEnded_frame s f
  rw [h]; exact hs

theorem gatesKept_trackPowerAbsent {s : State} (hs : gatesKept s) (high : Bool) : gatesKept (trackPowerAbsent high s) := by
  unfold trackPowerAbsent
  simp only
  split
  · exact hs
  iterate 3 exact gatesKept_goOff _
  iterate 2 exact gatesKept_retentionChecked (gatesKept_enterHoldup _)
  exact gatesKept_retentionChecked (by exact hs)

theorem gatesKept_effect (c : Instr) {s : State} (hs : gatesKept s) : gatesKept (effect c s) := by
  cases c with
  | irEdge l x y => exact gatesKept_irEdge hs l x y
  | passageClose l => exact gatesKept_passageClose hs l
  | stallDeclaration l => exact gatesKept_stallDeclaration hs l
  | stallEnd l => exact gatesKept_stallEnd hs l
  | noticeComplete l => exact gatesKept_noticeComplete hs l
  | blankingEnd l => exact gatesKept_blankingEnd hs l
  | handsetFrame levels span => exact gatesKept_handsetFrame hs levels span
  | handsetStaleRemoval a =>
    show gatesKept (handsetStaleRemoval a s)
    unfold handsetStaleRemoval
    split
    · split
      · exact gatesKept_removeHandset hs _
      · exact hs
    · exact hs
  | requestExpiry a =>
    obtain ⟨_, h⟩ := requestExpiry_frame a s
    exact gatesKept_of_eq h hs
  | gestureLapse a =>
    show gatesKept (gestureLapse a s)
    unfold gestureLapse
    split
    · split
      · exact gatesKept_judgeLocal (by exact hs)
      · exact hs
    · exact hs
  | noticeRunRepeat l => exact gatesKept_noticeRunRepeat hs l
  | saveComplete =>
    obtain ⟨_, _, _, _, h⟩ := saveComplete_frame s
    exact gatesKept_of_eq h hs
  | occupancyExpiry i =>
    obtain ⟨_, h⟩ := occupancyExpiry_frame i s
    exact gatesKept_of_eq h hs
  | laneHoldEnd l =>
    obtain ⟨_, h⟩ := laneHoldEnd_frame l s
    exact gatesKept_of_eq h hs
  | approachExpiry i =>
    obtain ⟨_, h⟩ := approachExpiry_frame i s
    exact gatesKept_of_eq h hs
  | neighbourSilence side => exact hs
  | grantLate l =>
    obtain ⟨_, _, _, _, _, _, h⟩ := grantLate_frame l s
    exact gatesKept_of_eq h hs
  | claimExpiry i =>
    obtain ⟨_, h⟩ := claimExpiry_frame i s
    exact gatesKept_of_eq h hs
  | coilPulseEnd present strap =>
    show gatesKept (coilPulseEnd present strap s)
    unfold coilPulseEnd
    split
    · split
      · next hdue => exact gatesKept_finishPulse (gates_eq_off hs (by rw [hdue.1]; rfl)) _ _ _
      · exact hs
    all_goals exact hs
  | bladeThrow l =>
    obtain ⟨_, h⟩ := bladeThrow_frame l s
    exact gatesKept_of_eq h hs
  | bladeRelease l =>
    obtain ⟨_, _, _, h⟩ := bladeRelease_frame l s
    exact gatesKept_of_eq h hs
  | coolingEnd l =>
    obtain ⟨_, h⟩ := coolingEnd_frame l s
    exact gatesKept_of_eq h hs
  | openCoil l x y =>
    obtain ⟨_, _, _, _, h⟩ := openCoil_frame l x y s
    exact gatesKept_of_eq h hs
  | attemptStart phase =>
    obtain ⟨_, _, h⟩ := attemptStart_frame phase s
    exact gatesKept_of_eq h hs
  | arbitrationLoss i =>
    obtain ⟨_, h⟩ := arbitrationLoss_frame i s
    exact gatesKept_of_eq h hs
  | bitFault i =>
    obtain ⟨_, h⟩ := bitFault_frame i s
    exact gatesKept_of_eq h hs
  | attemptComplete =>
    obtain ⟨_, _, _, _, h⟩ := attemptComplete_frame s
    exact gatesKept_of_eq h hs
  | frameDeadline i =>
    obtain ⟨_, _, _, _, _, _, h⟩ := frameDeadline_frame i s
    exact gatesKept_of_eq h hs
  | beaconTimer =>
    obtain ⟨_, _, _, _, h⟩ := beaconTimer_frame s
    exact gatesKept_of_eq h hs
  | frameDiscarded bits =>
    obtain ⟨_, _, h⟩ := frameDiscarded_frame bits s
    exact gatesKept_of_eq h hs
  | passReceived bits phase => exact gatesKept_received hs .pass bits phase
  | bindReceived bits phase => exact gatesKept_received hs .bind bits phase
  | joinReceived bits phase => exact gatesKept_received hs .join bits phase
  | heatReceived bits phase => exact gatesKept_received hs .heat bits phase
  | beaconReceived bits phase => exact gatesKept_received hs .beacon bits phase
  | cfgdReceived bits phase => exact gatesKept_received hs .cfgd bits phase
  | cfgrReceived bits phase => exact gatesKept_received hs .cfgr bits phase
  | cfgwReceived bits phase => exact gatesKept_received hs .cfgw bits phase
  | cfgxReceived bits phase => exact gatesKept_received hs .cfgx bits phase
  | configWriteComplete =>
    obtain ⟨_, _, _, _, h⟩ := configWriteComplete_frame s
    exact gatesKept_of_eq h hs
  | powerOn held =>
    show gatesKept (powerOn held s)
    unfold powerOn
    split
    · exact gatesKept_enterLoad _
    · exact hs
  | loadReadComplete strap =>
    show gatesKept (loadReadComplete strap s)
    unfold loadReadComplete
    split
    · split
      · next hdue => exact gatesKept_finishRead (gates_eq_off hs (by rw [hdue.1]; rfl)) _
      · exact hs
    all_goals exact hs
  | syncEnd =>
    show gatesKept (syncEnd s)
    unfold syncEnd
    split
    · split
      · next hdue =>
        intro l
        have hl := hs l
        simp only [gateWorks, hdue.1] at hl
        exact hl
      · exact hs
    · exact hs
  | trackPowerAbsent high => exact gatesKept_trackPowerAbsent hs high
  | trackPowerReturn =>
    obtain ⟨_, _, h⟩ := trackPowerReturn_frame s
    exact gatesKept_of_eq h hs
  | debounceComplete =>
    show gatesKept (debounceComplete s)
    unfold debounceComplete
    split
    · split
      · exact gatesKept_enterSync s
      · exact hs
    · exact hs
  | retentionLow =>
    show gatesKept (retentionLow s)
    unfold retentionLow
    split
    · exact gatesKept_goOff s
    · exact hs
  | resetAssert =>
    show gatesKept (resetAssert s)
    unfold resetAssert
    split
    · exact hs
    · exact gatesKept_enterLoad _
  | resetRelease =>
    obtain ⟨_, _, _, h⟩ := resetRelease_frame s
    exact gatesKept_of_eq h hs
  | heatPress =>
    obtain ⟨_, _, _, _, _, _, h⟩ := heatPress_frame s
    exact gatesKept_of_eq h hs
  | tick => exact gatesKept_tick hs
  | levelSettled l x y => exact gatesKept_levelSettled hs l x y
  | lineReady bits =>
    obtain ⟨_, _, h⟩ := lineReady_frame bits s
    exact gatesKept_of_eq h hs
  | coilPulseStart =>
    obtain ⟨_, _, h⟩ := coilPulseStart_frame s
    exact gatesKept_of_eq h hs
  | heatInputReleased =>
    obtain ⟨_, h⟩ := heatInputReleased_frame s
    exact gatesKept_of_eq h hs
  | retentionEnds =>
    show gatesKept (retentionEnds s)
    unfold retentionEnds
    split
    · exact hs
    · exact gatesKept_goOff s

/-- Settles O10: every command keeps what `gatesKept` asks of each gate. -/
theorem gatesInvariantKept : Obligations.GatesInvariantKept :=
  step_keeps (fun _ _ h => h) (fun c _ h => gatesKept_effect c h)

end Sys2Proof.Machine
end

/-! # What the blocks do to the transmit queue in one event (R154, R155) -/

section
namespace Sys2Proof.Machine

open Sys2Proof.Safety

/-- Frames handed in now, each with the next number and an allowed body, and frames taken out. -/
inductive QueueMoved (allowed : FrameBody → Prop) (node : NodeState) (now : Time) (q : List TxFrame) (n : Nat) :
    List TxFrame → Nat → Prop
  | refl : QueueMoved allowed node now q n q n
  | handedIn {r m} (h : QueueMoved allowed node now q n r m) (f : TxFrame) (hid : f.id = m) (hqueued : f.queued = now)
      (hlevel : f.level = 0 ↔ f.body.kind = .pass) (hbody : allowed f.body) :
      QueueMoved allowed node now q n (queueAfter node now f r) (m + 1)
  | takenOut {r m} (h : QueueMoved allowed node now q n r m) (p : TxFrame → Bool) : QueueMoved allowed node now q n (r.filter p) m

theorem QueueMoved.trans {allowed : FrameBody → Prop} {node : NodeState} {now : Time} {q r u : List TxFrame} {n m k : Nat}
    (h : QueueMoved allowed node now q n r m) (h' : QueueMoved allowed node now r m u k) : QueueMoved allowed node now q n u k := by
  induction h' with
  | refl => exact h
  | handedIn _ f hid hqueued hlevel hbody ih => exact ih.handedIn f hid hqueued hlevel hbody
  | takenOut _ p ih => exact ih.takenOut p

theorem QueueMoved.mono {P Q : FrameBody → Prop} (hPQ : ∀ b, P b → Q b) {node : NodeState} {now : Time} {q r : List TxFrame}
    {n m : Nat} (h : QueueMoved P node now q n r m) : QueueMoved Q node now q n r m := by
  induction h with
  | refl => exact .refl
  | handedIn _ f hid hqueued hlevel hbody ih => exact ih.handedIn f hid hqueued hlevel (hPQ _ hbody)
  | takenOut _ p ih => exact ih.takenOut p

/-- R155: a body that is no PASS with outcome TAKEN. -/
def FrameBody.plain (b : FrameBody) : Prop := ∀ p, b = .pass p → p.outcome ≠ .taken

theorem isTaken_of_plain {f : TxFrame} (h : f.body.plain) : f.isTaken = false := by
  unfold TxFrame.isTaken
  split
  · next p hp => simpa using h p hp
  all_goals rfl

/-- The queue moves from a state to a state with nothing else of the controller, the node state or the present changed. -/
structure Queues (allowed : FrameBody → Prop) (s t : State) : Prop where
  node : t.node = s.node
  now : t.now = s.now
  line : t.line = { s.line with queue := t.line.queue, nextId := t.line.nextId }
  moved : QueueMoved allowed s.node s.now s.line.queue s.line.nextId t.line.queue t.line.nextId

section
variable {allowed : FrameBody → Prop}

theorem Queues.refl (s : State) : Queues allowed s s := ⟨rfl, rfl, rfl, .refl⟩

/-- A change outside the controller. -/
theorem Queues.of_line {s t : State} (hnode : t.node = s.node) (hnow : t.now = s.now) (hline : t.line = s.line) : Queues allowed s t :=
  ⟨hnode, hnow, by rw [hline], by rw [hline]; exact .refl⟩

theorem Queues.trans {s t u : State} (h : Queues allowed s t) (h' : Queues allowed t u) : Queues allowed s u where
  node := h'.node.trans h.node
  now := h'.now.trans h.now
  line := by rw [h'.line, h.line]
  moved := h.moved.trans (by have := h'.moved; rwa [h.node, h.now] at this)

theorem Queues.any {s t : State} (h : Queues allowed s t) : Queues (fun _ => True) s t :=
  ⟨h.node, h.now, h.line, h.moved.mono fun _ _ => trivial⟩

theorem handIn_queues (s : State) (level : BitVec 2) (body : FrameBody) (deadline : Time) (owner : Owner)
    (hlevel : level = 0 ↔ body.kind = .pass) (hbody : allowed body) : Queues allowed s (handIn s level body deadline owner) :=
  ⟨rfl, rfl, rfl, QueueMoved.refl.handedIn (newFrame s level body deadline owner) rfl rfl hlevel hbody⟩

theorem queueLevel_nonzero {level : BitVec 2} {body : FrameBody} (h : level ≠ 0) (h' : body.kind ≠ .pass) :
    level = 0 ↔ body.kind = .pass :=
  ⟨fun e => absurd e h, fun e => absurd e h'⟩

end

/-! ## The frames of each block -/

theorem plain_of_kind {b : FrameBody} (h : b.kind ≠ .pass) : b.plain := by
  rintro p rfl
  exact absurd rfl h

theorem handIn_queues_plain (s : State) (level : BitVec 2) (body : FrameBody) (deadline : Time) (owner : Owner)
    (hlevel : level ≠ 0) (hbody : body.kind ≠ .pass) : Queues FrameBody.plain s (handIn s level body deadline owner) :=
  handIn_queues s level body deadline owner (queueLevel_nonzero hlevel hbody) (plain_of_kind hbody)

theorem queueLiveBind_queues (s : State) (c : Car) : Queues FrameBody.plain s (queueLiveBind s c) :=
  handIn_queues_plain s 1 _ _ _ (by decide) (by simp [FrameBody.kind])

theorem queueHeat_queues (s : State) : Queues FrameBody.plain s (queueHeat s) :=
  handIn_queues_plain s 1 _ _ _ (by decide) (by simp [FrameBody.kind])

theorem queueJoin_queues (s : State) : Queues FrameBody.plain s (queueJoin s) :=
  handIn_queues_plain s 2 _ _ _ (by decide) (by simp [FrameBody.kind])

theorem queueCfgd_queues (s : State) : Queues FrameBody.plain s (queueCfgd s) :=
  handIn_queues_plain s 3 _ _ _ (by decide) (by simp [FrameBody.kind])

theorem queueBeacon_queues (s : State) : Queues FrameBody.plain s (queueBeacon s) :=
  handIn_queues_plain s 3 _ _ _ (by decide) (by simp [FrameBody.kind])

theorem queuePass_queues {allowed : FrameBody → Prop} (s : State) (p : PassBody) (deadline : Time) (owner : Owner)
    (hp : allowed (.pass p)) : Queues allowed s (queuePass s p deadline owner) :=
  handIn_queues s 0 (.pass p) deadline owner (iff_of_true rfl rfl) hp

theorem feedOnce_queues (s : State) : Queues FrameBody.plain s (feedOnce s) := by
  unfold feedOnce
  split
  · exact .refl s
  · split
    · exact .refl s
    · split
      · exact .of_line rfl rfl rfl
      · exact (handIn_queues_plain s 2 _ _ _ (by decide) (by simp [FrameBody.kind])).trans (.of_line rfl rfl rfl)

theorem feedTimes_queues (n : Nat) (s : State) : Queues FrameBody.plain s (feedTimes n s) := by
  induction n generalizing s with
  | zero => exact .refl s
  | succ n ih => exact (feedOnce_queues s).trans (ih _)

theorem feed_queues (s : State) : Queues FrameBody.plain s (feed s) := feedTimes_queues _ s

theorem takenOut_queues (s : State) (p : TxFrame → Bool) : Queues FrameBody.plain s (s.setQueue (s.line.queue.filter p)) :=
  ⟨rfl, rfl, rfl, QueueMoved.refl.takenOut p⟩

theorem removeFrame_queues (s : State) (id : Nat) : Queues FrameBody.plain s (removeFrame s id) := by
  unfold removeFrame
  split
  · exact (takenOut_queues s _).trans (feed_queues _)
  · exact .refl s

theorem joinTaken_queues (s : State) (a : NodeAddr) : Queues FrameBody.plain s (joinTaken s a) := by
  unfold joinTaken
  split
  · exact Queues.trans (t := s.setCursor (some 0)) (.of_line rfl rfl rfl) (feed_queues _)
  · exact .refl s

theorem removeOldBeacon_queues (s : State) : Queues FrameBody.plain s (removeOldBeacon s) := by
  unfold removeOldBeacon
  split
  · exact removeFrame_queues s _
  · exact .refl s

/-! ## Bindings and reports -/

theorem localBind_queues (s : State) (l : Lane) (p : Proposal) : Queues FrameBody.plain s (localBind s l p) := by
  unfold localBind
  split
  · obtain ⟨_, ha⟩ := applyProposal_frame s p
    have happlied : Queues FrameBody.plain s (applyProposal s p) := by rw [ha]; exact .of_line rfl rfl rfl
    obtain ⟨_, _, hr⟩ := startRun_frame (queueLiveBind (applyProposal s p) p.car) l p.car
    refine (happlied.trans (queueLiveBind_queues _ p.car)).trans ?_
    rw [hr]; exact .of_line rfl rfl rfl
  · exact .refl s

theorem judgeLocal_queues (s : State) : Queues FrameBody.plain s (judgeLocal s) :=
  judgeLocal_keeps (P := Queues FrameBody.plain s) (.refl s) (fun _ l p => localBind_queues s l p)

theorem codeReported_queues (s : State) (l : Lane) (c : CarCode) : Queues FrameBody.plain s (codeReported s l c) := by
  unfold codeReported
  split
  · obtain ⟨_, h⟩ := endRunOnCode_frame s l c
    refine Queues.trans (t := endRunOnCode s l c) ?_ (judgeLocal_queues _)
    rw [h]; exact .of_line rfl rfl rfl
  · exact .refl s

theorem reportChange_queues (s : State) (l : Lane) (old : Option CarCode) : Queues FrameBody.plain s (reportChange s l old) := by
  unfold reportChange
  split
  · next c _ =>
    split
    · exact .refl s
    · exact Queues.trans (t := occupancyCode s l c) (.of_line rfl rfl rfl) (codeReported_queues _ l c)
  · exact .refl s

theorem stallEndReported_queues (s : State) (l : Lane) : Queues FrameBody.plain s (stallEndReported s l) := by
  unfold stallEndReported
  split
  · exact Queues.trans (t := s.setRun l none) (.of_line rfl rfl rfl) (judgeLocal_queues _)
  · exact .refl s

/-! ## The end of a grant and the rechecks -/

theorem endGrant_queues {o : Outcome} (ho : o ≠ .taken) (s : State) (l : Lane) (g : Grant) :
    Queues FrameBody.plain s (endGrant s l g o) := by
  have hgiven : Queues FrameBody.plain s (giveBack ((removeTarget s l).setSlot l none) g) := by
    unfold giveBack
    split
    · exact .of_line rfl rfl rfl
    · next d _ =>
      obtain ⟨_, h⟩ := restoreOrder_frame ((removeTarget s l).setSlot l none) g.code d
      rw [h]; exact .of_line rfl rfl rfl
  refine hgiven.trans (queuePass_queues _ _ _ _ ?_)
  rintro p ⟨⟩
  exact ho

theorem removeTaken_queues (s : State) (g : Grant) : Queues FrameBody.plain s (removeTaken s g) := by
  unfold removeTaken
  split
  · exact removeFrame_queues s _
  · exact .refl s

theorem withdraw_queues {o : Outcome} (ho : o ≠ .taken) (s : State) (l : Lane) : Queues FrameBody.plain s (withdraw s l o) := by
  unfold withdraw
  split
  · split
    · exact (removeTaken_queues s _).trans (endGrant_queues ho _ l _)
    · exact .refl s
  · exact .refl s

theorem standDownBlade_queues (s : State) (l : Lane) : Queues FrameBody.plain s (standDownBlade s l) := by
  obtain ⟨_, h⟩ := standDownBlade_frame s l
  rw [h]; exact .of_line rfl rfl rfl

theorem abort_queues (s : State) (l : Lane) : Queues FrameBody.plain s (abort s l) := by
  unfold abort
  split
  · split
    · exact (standDownBlade_queues s l).trans (endGrant_queues (by decide) _ l _)
    · exact .refl s
  · exact .refl s

theorem recheck_queues (s : State) (r : Option ApproachRecord) : Queues FrameBody.plain s (recheck s r) :=
  recheck_keeps (P := Queues FrameBody.plain s) (fun t l h => h.trans (withdraw_queues (by decide) t l))
    (fun t l h => h.trans (abort_queues t l)) r (.refl s)

theorem approachNotice_queues (s : State) (p : PassNotice) (o : Outcome) (t : Time) :
    Queues FrameBody.plain s (approachNotice s p o t) := by
  unfold approachNotice
  simp only
  split
  · refine Queues.trans (t := enterApproach s (approachRecord s.working p o t)) ?_ (recheck_queues _ _)
    obtain ⟨_, _, h⟩ := enterApproach_frame s (approachRecord s.working p o t)
    rw [h]; exact .of_line rfl rfl rfl
  · exact .refl s

theorem claimNotice_queues (s : State) (a : NodeAddr) (p : PassNotice) (o : Outcome) (t : Time) :
    Queues FrameBody.plain s (claimNotice s a p o t) := by
  have hentered : Queues FrameBody.plain s (recheck (enterClaim s (claimOf a p t)) none) := by
    refine Queues.trans (t := enterClaim s (claimOf a p t)) ?_ (recheck_queues _ _)
    obtain ⟨_, _, h⟩ := enterClaim_frame s (claimOf a p t)
    rw [h]; exact .of_line rfl rfl rfl
  unfold claimNotice
  split
  iterate 3
    split
    · exact hentered
    · exact .refl s
  iterate 3 exact .of_line rfl rfl rfl
  all_goals exact .refl s

theorem passToTables_queues (p : PassNotice) (o : Outcome) (s : State) : Queues FrameBody.plain s (passToTables p o s) := by
  unfold passToTables
  split
  · obtain ⟨_, h⟩ := passConsumes_frame (orderReceived s p o) p
    obtain ⟨_, h'⟩ := orderReceived_frame s p o
    rw [h, h']; exact .of_line rfl rfl rfl
  · exact .refl s

theorem takePass_queues (f : GoodFrame) (t : Time) (s : State) : Queues FrameBody.plain s (takePass f t s) := by
  have happroach : ∀ p o, Queues FrameBody.plain s (passToApproach f p o t s) := fun p o => by
    unfold passToApproach
    split
    · exact approachNotice_queues s p o t
    · exact .refl s
  have hclaims : ∀ p o u, Queues FrameBody.plain u (passToClaims f p o t u) := fun p o u => by
    unfold passToClaims
    split
    · exact claimNotice_queues u _ p o t
    · exact .refl u
  unfold takePass
  simp only
  split
  · exact ((happroach _ _).trans (hclaims _ _ _)).trans (passToTables_queues _ _ _)
  · exact .refl s

/-! ## Decisions -/

theorem ladder_queues (s : State) (c : Candidate) : Queues FrameBody.plain s (ladder s c).1 :=
  ladder_keeps (P := Queues FrameBody.plain s) (.refl s) (abort_queues s _) (withdraw_queues (by decide) s _)

/-- Steps 2 to 4 of R115 write the handset table, the binding entries and the occupancy block. -/
theorem settled_frame (s : State) (c : Candidate) (d : Decided) : ∃ hs e es h,
    settleTarget (settleOrder (settleRequest s c d.outcome) c d.outcome) c d =
      { s with handsets := hs, bind := { s.bind with entries := e }, occ := { s.occ with list := es, holds := h } } := by
  have horder : ∃ e, settleOrder (settleRequest s c d.outcome) c d.outcome =
      { settleRequest s c d.outcome with bind := { (settleRequest s c d.outcome).bind with entries := e } } := by
    unfold settleOrder
    split
    · split <;> exact ⟨_, rfl⟩
    · exact ⟨_, rfl⟩
  obtain ⟨hs, hr⟩ := settleRequest_frame s c d.outcome
  obtain ⟨e, ho⟩ := horder
  obtain ⟨es, h, ht⟩ := settleTarget_frame (settleOrder (settleRequest s c d.outcome) c d.outcome) c d
  exact ⟨hs, e, es, h, by rw [ht, ho, hr]⟩

theorem settleNotice_queues (s : State) (c : Candidate) (d : Decided) : Queues (fun _ => True) s (settleNotice s c d) := by
  unfold settleNotice
  split
  · exact Queues.trans (t := s.setSlot c.record.lane (newGrant s c d.laneOut)) (.of_line rfl rfl rfl)
      (queuePass_queues _ _ _ _ trivial)
  · exact queuePass_queues _ _ _ _ trivial

theorem settle_queues (s : State) (c : Candidate) (d : Decided) : Queues (fun _ => True) s (settle s c d) := by
  obtain ⟨_, _, _, _, h⟩ := settled_frame s c d
  refine Queues.trans (t := settleTarget (settleOrder (settleRequest s c d.outcome) c d.outcome) c d) ?_ (settleNotice_queues _ c d)
  rw [h]; exact .of_line rfl rfl rfl

theorem decideRecord_queues (s : State) (r : PassageRecord) : Queues (fun _ => True) s (decideRecord s r) :=
  (ladder_queues s _).any.trans (settle_queues _ _ _)

theorem handOver_queues (s : State) (r : PassageRecord) : Queues (fun _ => True) s (handOver s r) := by
  have htaken : Queues (fun _ => True) s (takeRecord s r) := by
    obtain ⟨_, _, _, h⟩ := takeRecord_frame s r
    rw [h]; exact .of_line rfl rfl rfl
  unfold handOver
  split
  · exact htaken.trans (decideRecord_queues _ r)
  · split
    · exact htaken
    · exact .refl s

/-! ## Handsets -/

theorem removeHandset_queues (s : State) (e : HandsetEntry) : Queues FrameBody.plain s (removeHandset s e) := by
  unfold removeHandset
  split
  · exact Queues.trans (t := s.dropHandset e.address) (.of_line rfl rfl rfl) (judgeLocal_queues _)
  · exact .of_line rfl rfl rfl

theorem takeGesture_queues (s : State) (f : HandsetFrame) (e : HandsetEntry) : Queues FrameBody.plain s (takeGesture s f e) := by
  unfold takeGesture
  simp only
  split
  · exact .of_line rfl rfl rfl
  · exact Queues.trans (t := s.updateHandset f.address _) (.of_line rfl rfl rfl) (judgeLocal_queues _)

theorem acceptFrame_queues (s : State) (f : HandsetFrame) : Queues FrameBody.plain s (acceptFrame s f) := by
  unfold acceptFrame
  split
  · next e _ =>
    unfold knownFrame
    obtain ⟨_, _, h⟩ := takeCounts_frame (s.updateHandset f.address (fun x => { x with lastHeard := s.now })) f e
    refine Queues.trans (t := takeCounts _ f e) ?_ (takeGesture_queues _ f e)
    rw [h]; exact .of_line rfl rfl rfl
  · unfold firstSighting
    split
    · next t ht =>
      have hroom : Queues FrameBody.plain s t := by
        unfold makeHandsetRoom at ht
        split at ht
        · cases ht; exact .refl s
        · obtain ⟨e, _, rfl⟩ := Option.map_eq_some_iff.1 ht
          exact removeHandset_queues s e
      refine hroom.trans ?_
      simp only
      split
      · exact Queues.trans (t := { t with handsets := t.handsets ++ [f.firstEntry s.now] }) (.of_line rfl rfl rfl)
          (judgeLocal_queues _)
      · exact .of_line rfl rfl rfl
    · exact .refl s

/-! ## The commands of the working blocks -/

theorem handsetFrame_queues (levels : List Bool) (span : Nat) (s : State) : Queues FrameBody.plain s (handsetFrame levels span s) := by
  unfold handsetFrame
  split
  · split
    · unfold runCloses
      split
      · exact acceptFrame_queues s _
      · exact .refl s
    · exact .refl s
  · exact .refl s

theorem handsetStaleRemoval_queues (a : HandsetAddr) (s : State) : Queues FrameBody.plain s (handsetStaleRemoval a s) := by
  unfold handsetStaleRemoval
  split
  · split
    · exact removeHandset_queues s _
    · exact .refl s
  · exact .refl s

theorem gestureLapse_queues (a : HandsetAddr) (s : State) : Queues FrameBody.plain s (gestureLapse a s) := by
  unfold gestureLapse
  split
  · split
    · exact Queues.trans (t := s.updateHandset a _) (.of_line rfl rfl rfl) (judgeLocal_queues _)
    · exact .of_line rfl rfl rfl
  · exact .refl s

theorem acceptEdge_queues (s : State) (l : Lane) (lit : Bool) : Queues FrameBody.plain s (acceptEdge s l lit) :=
  Queues.trans (t := s.setGate l _) (.of_line rfl rfl rfl) (reportChange_queues _ l _)

theorem irEdge_queues (l : Lane) (x y : Bool) (s : State) : Queues FrameBody.plain s (irEdge l x y s) := by
  unfold irEdge
  simp only
  split
  · split <;> split
    · exact acceptEdge_queues s l y
    · exact .refl s
    · exact acceptEdge_queues s l y
    · exact .of_line rfl rfl rfl
  · exact .refl s

theorem passageClose_queues (l : Lane) (s : State) : Queues (fun _ => True) s (passageClose l s) := by
  unfold passageClose
  simp only
  split
  · split
    · split
      · exact .of_line rfl rfl rfl
      · exact Queues.trans (t := s.setGate l _) (.of_line rfl rfl rfl) (handOver_queues _ _)
    · exact .refl s
  all_goals exact .refl s

theorem stallDeclaration_queues (l : Lane) (s : State) : Queues (fun _ => True) s (stallDeclaration l s) := by
  unfold stallDeclaration
  simp only
  split
  · split
    · exact Queues.trans (t := s.setGate l _) (.of_line rfl rfl rfl)
        ((handOver_queues _ _).trans (reportChange_queues _ l none).any)
    · exact .refl s
  all_goals exact .refl s

theorem stallEnd_queues (l : Lane) (s : State) : Queues FrameBody.plain s (stallEnd l s) := by
  unfold stallEnd
  simp only
  split
  · exact Queues.trans (t := occupancyStallEnd (s.setGate l _) l) (.of_line rfl rfl rfl) (stallEndReported_queues _ l)
  · exact .refl s

theorem grantLate_queues (l : Lane) (s : State) : Queues FrameBody.plain s (grantLate l s) := by
  unfold grantLate
  split
  · split
    · exact withdraw_queues (by decide) s l
    · exact .refl s
  · exact .refl s

theorem removeLate_queues (s : State) (f : TxFrame) : Queues FrameBody.plain s (removeLate s f) := by
  unfold removeLate
  split
  · split
    · unfold takenRemoved
      split
      · split
        · exact withdraw_queues (by decide) s _
        · exact removeFrame_queues s _
      · exact removeFrame_queues s _
    · exact removeFrame_queues s _
  all_goals exact removeFrame_queues s _

theorem frameDeadline_queues (i : Nat) (s : State) : Queues FrameBody.plain s (frameDeadline i s) := by
  unfold frameDeadline
  split
  · split
    · exact removeLate_queues s _
    · exact .refl s
  · exact .refl s

theorem applyHeat_queues (s : State) : Queues FrameBody.plain s (applyHeat s) := by
  obtain ⟨_, _, h⟩ := applyHeat_frame s
  rw [h]; exact .of_line rfl rfl rfl

theorem heatPress_queues (s : State) : Queues FrameBody.plain s (heatPress s) := by
  unfold heatPress
  split
  · split
    · unfold heatPressTaken
      split
      · exact Queues.trans (t := { s with sup := { s.sup with heatReleased := none } }) (.of_line rfl rfl rfl)
          ((queueHeat_queues _).trans (applyHeat_queues _))
      · exact .of_line rfl rfl rfl
    · exact .refl s
  · exact .refl s

/-- The takers but that of CFGX, which enters LOAD. -/
theorem taker_queues {kind : FrameKind} (hkind : kind ≠ .cfgx) (f : GoodFrame) (t : Time) (s : State) :
    Queues FrameBody.plain s (taker kind f t s) := by
  cases kind with
  | pass => exact takePass_queues f t s
  | bind =>
    simp only [taker, takeBind]
    split
    · next p _ =>
      split
      · obtain ⟨_, _, _, h⟩ := judgeProposal_frame s p
        rw [h]; exact .of_line rfl rfl rfl
      · exact .refl s
    · exact .refl s
  | heat =>
    simp only [taker, takeHeat]
    split
    · exact applyHeat_queues s
    · exact .refl s
  | join =>
    simp only [taker, takeJoin]
    split
    · exact joinTaken_queues s _
    · exact .refl s
  | cfgr =>
    simp only [taker, takeCfgr]
    split
    · exact queueCfgd_queues s
    · exact .refl s
  | cfgw =>
    simp only [taker, takeCfgw]
    split
    · exact .of_line rfl rfl rfl
    · exact .refl s
  | cfgx => exact absurd rfl hkind
  | beacon => exact .refl s
  | cfgd => exact .refl s

end Sys2Proof.Machine
end

/-! # Slots and blades in agreement (R117, R119, R132, R133, R136, R156) -/

section
namespace Sys2Proof.Machine

open Sys2Proof.Safety

/-! ## One lane -/

/-- What `bladeKept` asks of the slot and the blade of a lane. -/
def laneKept (node : NodeState) (load : LoadWork) (l : Lane) (slot : Option Grant) (b : Blade) : Prop :=
  (node ≠ .run → slot = none ∧ b.state ≠ .armed ∧ b.state ≠ .thrown) ∧
  (b.state = .armed ∨ b.state = .thrown ↔ ∃ g, slot = some g ∧ g.state = .committed) ∧
  (∀ g, slot = some g → g.state = .provisional → b.state = .rest) ∧
  (b.coil = true ↔ b.state = .thrown ∨ ∃ t, load = .pulse l t) ∧
  (b.state = .armed ∨ b.state = .thrown → b.throwAt.isSome = true ∧ b.releaseAt.isSome = true)

theorem bladeKept_iff (s : State) (l : Lane) :
    bladeKept s l ↔ laneKept s.node s.sup.load l (s.grants.slots.get l) (s.blades.get l) := Iff.rfl

section
variable {node : NodeState} {load : LoadWork} {l : Lane} {slot : Option Grant} {b : Blade}

/-- A free slot with a blade at no throw. -/
theorem laneKept_free (harmed : b.state ≠ .armed) (hthrown : b.state ≠ .thrown) (hcoil : b.coil = true ↔ ∃ t, load = .pulse l t) :
    laneKept node load l none b := by
  refine ⟨fun _ => ⟨rfl, harmed, hthrown⟩, ?_, ?_, ?_, ?_⟩
  · simp [harmed, hthrown]
  · intro g hg
    cases hg
  · simp [hthrown, hcoil]
  · simp [harmed, hthrown]

theorem not_run_of_load (h : load ≠ .idle → node = .load) (hrun : node = .run) : load = .idle := by
  by_contra hne
  rw [h hne] at hrun
  cases hrun

/-- The slot's state by the blade's: a PROVISIONAL grant has a blade in REST with its coil off. -/
theorem laneKept_provisional (h : laneKept node load l slot b) (hload : load ≠ .idle → node = .load) {g : Grant}
    (hslot : slot = some g) (hg : g.state = .provisional) : node = .run ∧ b.state = .rest ∧ b.coil = false ∧ load = .idle := by
  obtain ⟨hout, _, hrest, hcoil, _⟩ := h
  have hrun : node = .run := by
    by_contra hne
    rw [(hout hne).1] at hslot
    cases hslot
  have hidle := not_run_of_load hload hrun
  have hb := hrest g hslot hg
  refine ⟨hrun, hb, ?_, hidle⟩
  rw [Bool.eq_false_iff]
  intro hc
  rcases hcoil.1 hc with ht | ⟨t, ht⟩
  · rw [hb] at ht; cases ht
  · rw [hidle] at ht; cases ht

/-- A blade ARMED or THROWN belongs to a COMMITTED grant in RUN. -/
theorem laneKept_working (h : laneKept node load l slot b) (hload : load ≠ .idle → node = .load)
    (hb : b.state = .armed ∨ b.state = .thrown) :
    node = .run ∧ load = .idle ∧ ∃ g, slot = some g ∧ g.state = .committed := by
  obtain ⟨hout, hcommitted, _⟩ := h
  have hrun : node = .run := by
    by_contra hne
    rcases hb with hb | hb
    · exact (hout hne).2.1 hb
    · exact (hout hne).2.2 hb
  exact ⟨hrun, not_run_of_load hload hrun, hcommitted.1 hb⟩

end

/-! ## The state -/

theorem takenKept_of_queue {s t : State} (hs : takenKept s) (hslots : t.grants.slots = s.grants.slots)
    (hq : ∀ f ∈ t.line.queue, f.isTaken = true → f ∈ s.line.queue) : takenKept t := by
  intro f hf hft
  rw [hslots]
  exact hs f (hq f hf hft) hft

/-- The slot of one lane changes, and the queue holds no TAKEN frame of a PROVISIONAL grant of it. -/
theorem takenKept_at {s t : State} {l : Lane} (hs : takenKept s)
    (hother : ∀ m, m ≠ l → t.grants.slots.get m = s.grants.slots.get m)
    (hq : ∀ f ∈ t.line.queue, f.isTaken = true → f ∈ s.line.queue)
    (hl : ∀ g, s.grants.slots.get l = some g → g.state = .provisional →
      ∀ f ∈ t.line.queue, f.isTaken = true → g.frame ≠ some f.id) : takenKept t := by
  intro f hf hft
  obtain ⟨m, g, hm, hg, hframe⟩ := hs f (hq f hf hft) hft
  have hne : m ≠ l := by
    rintro rfl
    exact hl g hm hg f hf hft hframe
  exact ⟨m, g, (hother m hne).trans hm, hg, hframe⟩

/-- Slot and blade of one lane change. -/
theorem bladesKept_at {s t : State} {l : Lane} (hs : bladesKept s) (hnode : t.node = s.node) (hload : t.sup.load = s.sup.load)
    (hslots : ∀ m, m ≠ l → t.grants.slots.get m = s.grants.slots.get m)
    (hblades : ∀ m, m ≠ l → t.blades.get m = s.blades.get m) (hlane : bladeKept t l) (htaken : takenKept t) : bladesKept t := by
  obtain ⟨hwork, hlanes, _⟩ := hs
  refine ⟨by rw [hload, hnode]; exact hwork, fun m => ?_, htaken⟩
  by_cases hm : m = l
  · rw [hm]; exact hlane
  · rw [bladeKept_iff, hnode, hload, hslots m hm, hblades m hm]
    exact hlanes m

theorem mem_queueAfter {node : NodeState} {now : Time} {g f : TxFrame} {q : List TxFrame} (h : f ∈ queueAfter node now g q) :
    f = g ∨ f ∈ q := by
  rcases queueAfter_spec node now g q with e | ⟨_, _, r, hr, e⟩
  · rw [e] at h
    exact .inr h
  · rw [e, enterFrame, mem_enterInOrder] at h
    exact h.imp_right fun hm => (makeRoom_spec q r hr).1.subset hm

/-- Of the blocks' moves none but a decision's enters a TAKEN frame. -/
theorem QueueMoved.taken {node : NodeState} {now : Time} {q r : List TxFrame} {n m : Nat}
    (h : QueueMoved FrameBody.plain node now q n r m) : ∀ f ∈ r, f.isTaken = true → f ∈ q := by
  induction h with
  | refl => exact fun f hf _ => hf
  | handedIn _ g _ _ _ hbody ih =>
    intro f hf hft
    rcases mem_queueAfter hf with rfl | hf
    · rw [isTaken_of_plain hbody] at hft
      cases hft
    · exact ih f hf hft
  | takenOut _ p ih => exact fun f hf hft => ih f (List.mem_of_mem_filter hf) hft

/-- What the other blocks do. -/
theorem bladesKept_of_queues {s t : State} (hs : bladesKept s) (hq : Queues FrameBody.plain s t) (hload : t.sup.load = s.sup.load)
    (hslots : t.grants.slots = s.grants.slots) (hblades : t.blades = s.blades) : bladesKept t := by
  have ⟨hwork, hlanes, htaken⟩ := hs
  refine ⟨by rw [hload, hq.node]; exact hwork, fun l => ?_, takenKept_of_queue htaken hslots hq.moved.taken⟩
  rw [bladeKept_iff, hq.node, hload, hslots, hblades]
  exact hlanes l

/-- Another writing of the state. -/
theorem bladesKept_of_eq {s t : State} (h : s = t) (ht : bladesKept t) : bladesKept s := h ▸ ht

/-! ## The end of a grant -/

theorem removeFrame_taken {s : State} {id : Nat} {f : TxFrame} (hf : f ∈ (removeFrame s id).line.queue) (hft : f.isTaken = true) :
    f ∈ s.line.queue ∧ f.id ≠ id := by
  unfold removeFrame at hf
  split at hf
  · have hmem : f ∈ s.line.queue.filter (fun f => decide (f.id ≠ id)) := (feed_queues _).moved.taken f hf hft
    simpa using List.mem_filter.1 hmem
  · next hnone =>
    refine ⟨hf, fun e => hnone ?_⟩
    exact List.any_eq_true.2 ⟨f, hf, by simpa using e⟩

theorem endGrant_blades (s : State) (l : Lane) (g : Grant) (o : Outcome) :
    (endGrant s l g o).blades = s.blades ∧ (endGrant s l g o).sup = s.sup ∧
      (endGrant s l g o).grants.slots = s.grants.slots.set l none := by
  obtain ⟨_, _, _, h⟩ := endGrant_frame s l g o
  rw [h]; exact ⟨rfl, rfl, rfl⟩

theorem removeTaken_blades (s : State) (g : Grant) :
    (removeTaken s g).blades = s.blades ∧ (removeTaken s g).sup = s.sup ∧ (removeTaken s g).grants = s.grants := by
  unfold removeTaken
  split
  · next id _ =>
    obtain ⟨_, _, _, h⟩ := removeFrame_frame s id
    rw [h]; exact ⟨rfl, rfl, rfl⟩
  · exact ⟨rfl, rfl, rfl⟩

theorem removeTaken_taken {s : State} {g : Grant} {f : TxFrame} (hf : f ∈ (removeTaken s g).line.queue) (hft : f.isTaken = true) :
    f ∈ s.line.queue ∧ g.frame ≠ some f.id := by
  unfold removeTaken at hf
  split at hf
  · next id hid =>
    obtain ⟨hmem, hne⟩ := removeFrame_taken hf hft
    exact ⟨hmem, by rw [hid]; simpa using Ne.symm hne⟩
  · next hid => exact ⟨hf, by simp [hid]⟩

theorem bladesKept_withdraw {s : State} (hs : bladesKept s) {o : Outcome} (ho : o ≠ .taken) (l : Lane) :
    bladesKept (withdraw s l o) := by
  unfold withdraw
  split
  · next g hg =>
    split
    · next hprov =>
      have ⟨hwork, hlanes, htaken⟩ := hs
      obtain ⟨_, hrest, hoff, hidle⟩ := laneKept_provisional (hlanes l) hwork hg hprov
      obtain ⟨hb, hsup, hslots⟩ := endGrant_blades (removeTaken s g) l g o
      obtain ⟨hb', hsup', hgrants'⟩ := removeTaken_blades s g
      rw [hb'] at hb
      rw [hsup'] at hsup
      rw [hgrants'] at hslots
      have hq := endGrant_queues ho (removeTaken s g) l g
      have hnode : (endGrant (removeTaken s g) l g o).node = s.node := hq.node.trans (removeTaken_queues s g).node
      have hother : ∀ m, m ≠ l → (endGrant (removeTaken s g) l g o).grants.slots.get m = s.grants.slots.get m := fun m hm => by
        rw [hslots, PerLane.get_set, if_neg hm]
      refine bladesKept_at (l := l) hs hnode (congrArg _ hsup) hother (fun m _ => by rw [hb]) ?_ ?_
      · rw [bladeKept_iff, hslots, hb, hsup, PerLane.get_set, if_pos rfl]
        exact laneKept_free (by rw [hrest]; decide) (by rw [hrest]; decide) (by simp [hoff, hidle])
      · refine takenKept_at htaken hother (fun f hf hft => (removeTaken_taken (hq.moved.taken f hf hft) hft).1) ?_
        intro g' hg' _ f hf hft
        rw [hg] at hg'
        cases hg'
        exact (removeTaken_taken (hq.moved.taken f hf hft) hft).2
    · exact hs
  · exact hs

/-- R120, R126: a grant that is not PROVISIONAL leaves its slot, its blade standing down. -/
theorem bladesKept_freed {s t : State} {l : Lane} (hs : bladesKept s) (hnode : t.node = s.node) (hload : t.sup.load = s.sup.load)
    (hslots : t.grants.slots = s.grants.slots.set l none) {b : Blade} (hblades : t.blades = s.blades.set l b)
    (harmed : b.state ≠ .armed) (hthrown : b.state ≠ .thrown) (hcoil : b.coil = false)
    (hworking : (s.blades.get l).state = .armed ∨ (s.blades.get l).state = .thrown)
    (hq : ∀ f ∈ t.line.queue, f.isTaken = true → f ∈ s.line.queue) : bladesKept t := by
  have ⟨hwork, hlanes, htaken⟩ := hs
  obtain ⟨_, hidle, g, hg, hcommitted⟩ := laneKept_working (hlanes l) hwork hworking
  have hother : ∀ m, m ≠ l → t.grants.slots.get m = s.grants.slots.get m := fun m hm => by
    rw [hslots, PerLane.get_set, if_neg hm]
  refine bladesKept_at (l := l) hs hnode hload hother (fun m hm => by rw [hblades, PerLane.get_set, if_neg hm]) ?_ ?_
  · rw [bladeKept_iff, hslots, hblades, hload, PerLane.get_set, if_pos rfl, PerLane.get_set, if_pos rfl]
    exact laneKept_free harmed hthrown (by simp [hcoil, hidle])
  · refine takenKept_at htaken hother hq fun g' hg' hprov => ?_
    rw [hg] at hg'
    cases hg'
    rw [hcommitted] at hprov
    cases hprov

theorem bladesKept_abort {s : State} (hs : bladesKept s) (l : Lane) : bladesKept (abort s l) := by
  unfold abort
  split
  · next g hg =>
    split
    · next h =>
      obtain ⟨_, harmed⟩ := h
      have hdown : standDownBlade s l = s.setBlade l ((s.blades.get l).standDown (Time.plus s.now Config.coolingTicks)) := by
        simp [standDownBlade, harmed]
      obtain ⟨hb, hsup, hslots⟩ := endGrant_blades (standDownBlade s l) l g .aborted
      have hq := endGrant_queues (o := .aborted) (by decide) (standDownBlade s l) l g
      have hnode := hq.node
      rw [hdown] at hb hsup hslots hq hnode ⊢
      exact bladesKept_freed hs hnode (congrArg _ hsup) hslots hb (by simp [Blade.standDown]) (by simp [Blade.standDown]) rfl
        (.inl harmed) hq.moved.taken
    · exact hs
  · exact hs

theorem bladesKept_recheck {s : State} (hs : bladesKept s) (r : Option ApproachRecord) : bladesKept (recheck s r) :=
  recheck_keeps (P := bladesKept) (fun _ l h => bladesKept_withdraw h (by decide) l) (fun _ l h => bladesKept_abort h l) r hs

theorem bladesKept_bladeRelease {s : State} (hs : bladesKept s) (l : Lane) : bladesKept (bladeRelease l s) := by
  unfold bladeRelease
  simp only
  split
  · split
    · next h =>
      exact bladesKept_freed hs rfl rfl rfl rfl (by simp [Blade.standDown]) (by simp [Blade.standDown]) rfl (.inr h.1)
        (fun _ hf _ => hf)
    · exact hs
  · exact hs

theorem bladesKept_openCoil {s : State} (hs : bladesKept s) (l : Lane) (x y : Bool) : bladesKept (openCoil l x y s) := by
  unfold openCoil
  simp only
  split
  · next h =>
    split
    · exact bladesKept_freed hs rfl rfl rfl rfl (by simp [Blade.failed]) (by simp [Blade.failed]) rfl (.inr h) (fun _ hf _ => hf)
    · exact hs
  · exact hs

/-! ## The blade at its times, and the commitment -/

/-- One blade changes. -/
theorem bladesKept_setBlade {s : State} (hs : bladesKept s) {l : Lane} {b : Blade}
    (hlane : laneKept s.node s.sup.load l (s.grants.slots.get l) b) : bladesKept (s.setBlade l b) := by
  refine bladesKept_at (l := l) hs rfl rfl (fun _ _ => rfl) (fun m hm => ?_) ?_ hs.2.2
  · rw [State.setBlade_blades, PerLane.get_set, if_neg hm]
  · rw [bladeKept_iff, State.setBlade_blades, PerLane.get_set, if_pos rfl]
    exact hlane

theorem bladesKept_bladeThrow {s : State} (hs : bladesKept s) (l : Lane) : bladesKept (bladeThrow l s) := by
  unfold bladeThrow
  simp only
  split
  · next h =>
    obtain ⟨harmed, _, hrun⟩ := h
    obtain ⟨_, hcommitted, _, _, htimes⟩ := hs.2.1 l
    obtain ⟨g, hg, hgc⟩ := hcommitted.1 (.inl harmed)
    refine bladesKept_setBlade hs ⟨fun hne => absurd hrun hne, iff_of_true (.inr rfl) ⟨g, hg, hgc⟩, ?_,
      iff_of_true rfl (.inl rfl), fun _ => htimes (.inl harmed)⟩
    intro g' hg' hprov
    rw [hg] at hg'
    cases hg'
    rw [hgc] at hprov
    cases hprov
  · exact hs

theorem bladesKept_coolingEnd {s : State} (hs : bladesKept s) (l : Lane) : bladesKept (coolingEnd l s) := by
  unfold coolingEnd
  simp only
  split
  · next h =>
    obtain ⟨hcooling, _⟩ := h
    obtain ⟨hout, hcommitted, hrest, hcoil, _⟩ := hs.2.1 l
    rw [hcooling] at hcommitted hcoil
    refine bladesKept_setBlade hs ⟨fun hne => ⟨(hout hne).1, by simp, by simp⟩, ?_, fun _ _ _ => rfl, ?_, by simp⟩
    · simpa using hcommitted
    · simpa using hcoil
  · exact hs

/-- R135, R136: the blade of a grant that is committed in RUN. -/
theorem laneKept_armed {load : LoadWork} {l : Lane} {g : Grant} {b : Blade} {now : Time} {t r : Time}
    (hcommitted : g.state = .committed) (hidle : load = .idle) (hoff : b.coil = false) :
    laneKept .run load l (some g)
      (if arrived now t && decide (NodeState.run = .run)
       then { b with state := .armed, throwAt := some t, releaseAt := some r }.throw now
       else { b with state := .armed, throwAt := some t, releaseAt := some r }) := by
  subst hidle
  split
  · exact ⟨fun h => absurd rfl h, by simp [Blade.throw, hcommitted], by simp [hcommitted], by simp [Blade.throw], by simp [Blade.throw]⟩
  · exact ⟨fun h => absurd rfl h, by simp [hcommitted], by simp [hcommitted], by simp [hoff], by simp⟩

/-- R119, R150: the complete send of a frame that has left the queue. -/
theorem bladesKept_frameSent {s : State} (hs : bladesKept s) (l : Lane) (id : Nat)
    (hgone : ∀ f ∈ s.line.queue, f.isTaken = true → f.id ≠ id) : bladesKept (frameSent s l id) := by
  unfold frameSent
  split
  · next g hg =>
    split
    · next h =>
      obtain ⟨hprov, hframe⟩ := h
      have ⟨hwork, hlanes, htaken⟩ := hs
      obtain ⟨hrun, hrest, hoff, hidle⟩ := laneKept_provisional (hlanes l) hwork hg hprov
      have harmed : commitGrant s l g =
          (s.setSlot l (some { g with state := .committed, frame := none })).setBlade l
            (if arrived s.now g.throwAt && decide (s.node = .run)
             then { s.blades.get l with state := .armed, throwAt := some g.throwAt, releaseAt := some g.releaseAt }.throw s.now
             else { s.blades.get l with state := .armed, throwAt := some g.throwAt, releaseAt := some g.releaseAt }) := if_pos hrest
      rw [harmed]
      have hother : ∀ m, m ≠ l → (s.setSlot l (some { g with state := .committed, frame := none })).grants.slots.get m =
          s.grants.slots.get m := fun m hm => by
        rw [State.setSlot_grants, PerLane.get_set, if_neg hm]
      refine bladesKept_at (l := l) hs rfl rfl hother (fun m hm => ?_) ?_ ?_
      · rw [State.setBlade_blades, PerLane.get_set, if_neg hm]
        rfl
      · rw [bladeKept_iff, State.setBlade_blades, PerLane.get_set, if_pos rfl]
        show laneKept s.node s.sup.load l ((s.grants.slots.set l _).get l) _
        rw [PerLane.get_set, if_pos rfl, hrun]
        exact laneKept_armed rfl hidle hoff
      · refine takenKept_at (l := l) htaken hother (fun f hf _ => hf) fun g' hg' _ f hf hft hf' => ?_
        rw [hg] at hg'
        cases hg'
        rw [hframe] at hf'
        exact hgone f hf hft (Option.some.inj hf').symm
    · exact hs
  · exact hs

theorem bladesKept_removeFrame {s : State} (hs : bladesKept s) (id : Nat) : bladesKept (removeFrame s id) := by
  obtain ⟨_, _, _, h⟩ := removeFrame_frame s id
  exact bladesKept_of_queues hs (removeFrame_queues s id) (by rw [h]) (by rw [h]) (by rw [h])

theorem bladesKept_restartBeacon {s : State} (hs : bladesKept s) : bladesKept (restartBeacon s) := by
  unfold restartBeacon
  split <;> exact hs

theorem bladesKept_completeSend {s : State} (hs : bladesKept s) (f : TxFrame) : bladesKept (completeSend s f) := by
  have hremoved : bladesKept (removeFrame (frameEnded s) f.id) := bladesKept_removeFrame (by exact hs) _
  refine bladesKept_restartBeacon ?_
  unfold reportSent
  split
  · exact bladesKept_frameSent hremoved _ _ (fun g hg hgt => (removeFrame_taken hg hgt).2)
  all_goals exact hremoved

/-! ## Decisions -/

/-- R108, R114: a decision that ends in TAKEN finds its slot free and its blade in REST, in RUN. -/
theorem laterChecks_taken {s : State} {c : Candidate} {w : Bool} (h : (laterChecks s c w).outcome = .taken) :
    s.grants.slots.get c.record.lane = none ∧ (s.blades.get c.record.lane).state = .rest ∧
      ∃ x q, c.handset = some x ∧ c.request = some q := by
  unfold laterChecks at h
  simp only at h
  split at h
  · next x q hx hq =>
    split at h
    · cases h
    · next target _ =>
      split at h
      · split at h
        · next hr =>
          unfold refusals at hr
          simp only at hr
          split at hr
          · cases hr
          split at hr
          · cases hr
          split at hr
          · cases hr
          · next hbusy =>
            simp only [bladeBusy, Bool.or_eq_true, decide_eq_true_eq, not_or, not_not] at hbusy
            obtain ⟨⟨⟨hrest, _⟩, hslot⟩, _⟩ := hbusy
            exact ⟨by simpa using hslot, hrest, x, q, hx, hq⟩
        · next hne => exact absurd h hne
      · cases h
  · cases h

theorem check3_decided_outcome {s : State} {c : Candidate} {d : Decided} (h : check3 s c = .decided d) : d.outcome ≠ .taken := by
  unfold check3 at h
  simp only at h
  split at h
  · cases h
  · cases h
    simp only
    split <;> decide
  · split at h
    · cases h; simp
    · cases h
  · split at h
    · cases h; simp
    · cases h

theorem ladder_taken {s : State} {c : Candidate} (h : (ladder s c).2.outcome = .taken) :
    s.node ≠ .sync ∧ (ladder s c).1.grants.slots.get c.record.lane = none ∧
      ((ladder s c).1.blades.get c.record.lane).state = .rest ∧ ∃ x q, c.handset = some x ∧ c.request = some q := by
  unfold ladder at h ⊢
  simp only at h ⊢
  split at h
  · cases h
  · next hsync =>
    split at h
    · cases h
    · next hkind =>
      rw [if_neg hsync, if_neg hkind]
      split at h
      · next d hd => exact absurd h (check3_decided_outcome hd)
      · exact ⟨hsync, laterChecks_taken h⟩

/-- R117, R118: the slot is filled and its TAKEN frame handed in under the number that it names. -/
theorem bladesKept_settleNotice {s : State} (hs : bladesKept s) (c : Candidate) (d : Decided)
    (h : d.outcome = .taken → s.node = .run ∧ s.grants.slots.get c.record.lane = none ∧
      (s.blades.get c.record.lane).state = .rest ∧ ∃ x q, c.handset = some x ∧ c.request = some q) :
    bladesKept (settleNotice s c d) := by
  unfold settleNotice
  split
  · next ho =>
    obtain ⟨hrun, hfree, hrest, x, q, hx, hq⟩ := h ho
    have ⟨hwork, hlanes, htaken⟩ := hs
    have hidle := not_run_of_load hwork hrun
    obtain ⟨g, hg, hprov, hframe⟩ : ∃ g, newGrant s c d.laneOut = some g ∧ g.state = .provisional ∧ g.frame = some s.line.nextId := by
      simp only [newGrant, hx, hq]
      exact ⟨_, rfl, rfl, rfl⟩
    rw [hg]
    have hother : ∀ m, m ≠ c.record.lane →
        (s.setSlot c.record.lane (some g)).grants.slots.get m = s.grants.slots.get m := fun m hm => by
      rw [State.setSlot_grants, PerLane.get_set, if_neg hm]
    have hown : (s.setSlot c.record.lane (some g)).grants.slots.get c.record.lane = some g := by
      rw [State.setSlot_grants, PerLane.get_set, if_pos rfl]
    refine bladesKept_at (l := c.record.lane) hs rfl rfl hother (fun _ _ => rfl) ?_ ?_
    · obtain ⟨_, _, _, hcoil, _⟩ := hlanes c.record.lane
      rw [hrest, hidle] at hcoil
      show laneKept s.node s.sup.load _ _ (s.blades.get c.record.lane)
      rw [hidle, hrun]
      refine ⟨fun hne => absurd rfl hne, ?_, fun _ _ _ => hrest, ?_, ?_⟩
      · refine iff_of_false (by simp [hrest]) ?_
        rintro ⟨g', hg', hc⟩
        cases hown.symm.trans hg'
        rw [hprov] at hc
        cases hc
      · rw [hrest]; exact hcoil
      · simp [hrest]
    · intro f hf hft
      rcases mem_queueAfter hf with rfl | hf
      · exact ⟨c.record.lane, g, hown, hprov, hframe⟩
      · obtain ⟨m, g', hm, hg', hfr⟩ := htaken f hf hft
        have hne : m ≠ c.record.lane := by
          rintro rfl
          rw [hfree] at hm
          cases hm
        exact ⟨m, g', (hother m hne).trans hm, hg', hfr⟩
  · next ho =>
    refine bladesKept_of_queues hs (queuePass_queues s _ _ _ ?_) rfl rfl rfl
    rintro p ⟨⟩
    exact ho

theorem bladesKept_decideRecord {s : State} (hs : bladesKept s) (hlive : s.node.live = true) (r : PassageRecord) :
    bladesKept (decideRecord s r) := by
  have hladder : bladesKept (ladder s (candidate s r)).1 :=
    ladder_keeps hs (bladesKept_abort hs _) (bladesKept_withdraw hs (by decide) _)
  have hnode := (ladder_queues s (candidate s r)).node
  obtain ⟨_, _, _, _, h⟩ := settled_frame (ladder s (candidate s r)).1 (candidate s r) (ladder s (candidate s r)).2
  unfold decideRecord settle
  simp only
  rw [h]
  refine bladesKept_settleNotice (by exact hladder) _ _ fun htaken => ?_
  obtain ⟨hsync, hslot, hrest, hreq⟩ := ladder_taken htaken
  refine ⟨?_, hslot, hrest, hreq⟩
  show (ladder s (candidate s r)).1.node = .run
  rw [hnode]
  exact ((live_iff _).1 hlive).resolve_left hsync

theorem bladesKept_handOver {s : State} (hs : bladesKept s) (r : PassageRecord) : bladesKept (handOver s r) := by
  have htaken : bladesKept (takeRecord s r) ∧ (takeRecord s r).node = s.node := by
    obtain ⟨_, _, _, h⟩ := takeRecord_frame s r
    rw [h]; exact ⟨hs, rfl⟩
  unfold handOver
  split
  · next hlive => exact bladesKept_decideRecord htaken.1 (by rw [htaken.2]; exact hlive) r
  · split
    · exact htaken.1
    · exact hs

/-! ## Received frames -/

theorem bladesKept_takePass {s : State} (hs : bladesKept s) (f : GoodFrame) (t : Time) : bladesKept (takePass f t s) := by
  have happroach : ∀ p o, bladesKept (passToApproach f p o t s) := fun p o => by
    unfold passToApproach
    split
    · unfold approachNotice
      simp only
      split
      · obtain ⟨_, _, h⟩ := enterApproach_frame s (approachRecord s.working p o t)
        exact bladesKept_recheck (by rw [h]; exact hs) _
      · exact hs
    · exact hs
  have hclaims : ∀ u p o, bladesKept u → bladesKept (passToClaims f p o t u) := fun u p o hu => by
    have hentered : bladesKept (recheck (enterClaim u (claimOf f.originator p t)) none) := by
      obtain ⟨_, _, h⟩ := enterClaim_frame u (claimOf f.originator p t)
      exact bladesKept_recheck (by rw [h]; exact hu) _
    unfold passToClaims
    split
    · unfold claimNotice
      split
      iterate 3
        split
        · exact hentered
        · exact hu
      all_goals exact hu
    · exact hu
  unfold takePass
  simp only
  split
  · next o _ =>
    unfold passToTables
    split
    · obtain ⟨_, h⟩ := passConsumes_frame (orderReceived (passToClaims f (decodePass (payloadWord 88 f.payload)) o t
        (passToApproach f (decodePass (payloadWord 88 f.payload)) o t s)) (decodePass (payloadWord 88 f.payload)) o)
        (decodePass (payloadWord 88 f.payload))
      obtain ⟨_, h'⟩ := orderReceived_frame (passToClaims f (decodePass (payloadWord 88 f.payload)) o t
        (passToApproach f (decodePass (payloadWord 88 f.payload)) o t s)) (decodePass (payloadWord 88 f.payload)) o
      rw [h, h']
      exact hclaims _ _ _ (happroach _ _)
    · exact hclaims _ _ _ (happroach _ _)
  · exact hs

/-- No slot is filled, no blade is at a throw, and no coil is driven. -/
def bladesDown (s : State) : Prop :=
  ∀ l, s.grants.slots.get l = none ∧ (s.blades.get l).state ≠ .armed ∧ (s.blades.get l).state ≠ .thrown ∧
    (s.blades.get l).coil = false

theorem bladesKept_of_down {s : State} (h : bladesDown s) (hwork : s.sup.load ≠ .idle → s.node = .load)
    (hpulse : ∀ l t, s.sup.load ≠ .pulse l t) (htaken : ∀ f ∈ s.line.queue, f.isTaken = false) : bladesKept s := by
  refine ⟨hwork, fun l => ?_, fun f hf hft => ?_⟩
  · obtain ⟨hslot, harmed, hthrown, hcoil⟩ := h l
    rw [bladeKept_iff, hslot]
    exact laneKept_free harmed hthrown (by simp [hcoil, hpulse])
  · rw [htaken f hf] at hft
    cases hft

/-- Outside RUN and outside a presence pulse the blades are down. -/
theorem bladesDown_of_kept {s : State} (hs : bladesKept s) (hrun : s.node ≠ .run) (hpulse : ∀ l t, s.sup.load ≠ .pulse l t) :
    bladesDown s := by
  intro l
  obtain ⟨hout, _, _, hcoil, _⟩ := hs.2.1 l
  obtain ⟨hslot, harmed, hthrown⟩ := hout hrun
  refine ⟨hslot, harmed, hthrown, ?_⟩
  rw [Bool.eq_false_iff]
  intro hc
  rcases hcoil.1 hc with ht | ⟨t, ht⟩
  · exact hthrown ht
  · exact hpulse l t ht

theorem load_idle {s : State} (hs : bladesKept s) (h : s.node ≠ .load) : s.sup.load = .idle := by
  by_contra hne
  exact h (hs.1 hne)

/-- R141: a blade forced down; outside a pulse its coil is off. -/
theorem Blade.forcedDown_down {node : NodeState} {load : LoadWork} {l : Lane} {slot : Option Grant} {b : Blade}
    (h : laneKept node load l slot b) (hidle : load = .idle) (now : Time) :
    (b.forcedDown now).state ≠ .armed ∧ (b.forcedDown now).state ≠ .thrown ∧ (b.forcedDown now).coil = false := by
  obtain ⟨_, _, _, hcoil, _⟩ := h
  unfold Blade.forcedDown
  cases hb : b.state <;> simp [Blade.standDown, hb, hidle] at hcoil ⊢ <;> exact hcoil

theorem bladesDown_forced {s t : State} (hs : bladesKept s) (hload : s.node ≠ .load)
    (hslots : t.grants.slots = PerLane.const none) (hblades : t.blades = s.blades.map (fun b => b.forcedDown s.now)) : bladesDown t := by
  intro l
  rw [hslots, hblades, PerLane.get_const, PerLane.get_map]
  exact ⟨rfl, Blade.forcedDown_down (hs.2.1 l) (load_idle hs hload) _⟩

theorem ne_load_of_live {n : NodeState} (h : n.live = true) : n ≠ .load := by
  rintro rfl
  cases h

theorem bladesKept_enterFault {s : State} (hs : bladesKept s) (hlive : s.node.live = true) : bladesKept (enterFault (frameEnded s)) := by
  have hidle : s.sup.load = .idle := load_idle hs (ne_load_of_live hlive)
  exact bladesKept_of_down (bladesDown_forced hs (ne_load_of_live hlive) rfl rfl) (fun h => absurd hidle h)
    (fun l t h => by cases hidle.symm.trans h) (fun f hf => absurd hf List.not_mem_nil)

theorem bladesKept_enterHoldup {s : State} (hs : bladesKept s) (hlive : s.node.live = true) : bladesKept (enterHoldup s) := by
  have hidle : s.sup.load = .idle := load_idle hs (ne_load_of_live hlive)
  have hkept : bladesKept (holdupEntered s) :=
    bladesKept_of_down (bladesDown_forced hs (ne_load_of_live hlive) rfl rfl) (fun h => absurd hidle h)
      (fun l t h => by cases hidle.symm.trans h) (fun f hf => absurd hf List.not_mem_nil)
  unfold enterHoldup startSave
  split <;> exact hkept

theorem bladesDown_const {s : State} (hslots : s.grants.slots = PerLane.const none) (hblades : s.blades = PerLane.const Blade.absent) :
    bladesDown s := by
  intro l
  rw [hslots, hblades, PerLane.get_const, PerLane.get_const]
  exact ⟨rfl, by decide, by decide, rfl⟩

theorem bladesKept_goOff (s : State) : bladesKept (goOff s) :=
  bladesKept_of_down (bladesDown_const rfl rfl) (fun h => absurd rfl h) (fun _ _ => by simp [goOff, State.offWith, Supervisor.blank])
    (fun f hf => absurd hf List.not_mem_nil)

theorem bladesKept_enterLoad (s : State) : bladesKept (enterLoad s) := by
  unfold enterLoad powerChecked
  split
  · refine bladesKept_of_down (bladesDown_const rfl rfl) (fun _ => rfl) (fun l t => ?_) (fun f hf => absurd hf List.not_mem_nil)
    show loadStart _ ≠ .pulse l t
    unfold loadStart
    split <;> simp
  · exact bladesKept_goOff _

theorem bladesKept_retentionChecked {s : State} (hs : bladesKept s) : bladesKept (retentionChecked s) := by
  unfold retentionChecked
  split
  · exact hs
  · exact bladesKept_goOff s

/-- R167: SYNC is entered with the blades down. -/
theorem bladesKept_enterSync {s : State} (h : bladesDown s) : bladesKept (enterSync s) := by
  have hentered : bladesKept (portOn (syncEntered s)) :=
    bladesKept_of_down h (fun h => absurd rfl h) (fun _ _ => by simp [portOn, syncEntered]) (fun f hf => absurd hf List.not_mem_nil)
  exact bladesKept_of_queues hentered (queueJoin_queues _) rfl rfl rfl

theorem bladesKept_leaveLoad {s : State} (h : bladesDown s) (strap valid : Bool) : bladesKept (leaveLoad s strap valid) := by
  unfold leaveLoad
  simp only
  split
  · exact bladesKept_of_down h (fun h => absurd rfl h) (fun _ _ => by simp [enterSetup]) (fun f hf => absurd hf List.not_mem_nil)
  · exact bladesKept_enterSync h

/-- R134: a pulse begins with the blades down. -/
theorem bladesKept_startPulse {s : State} (h : bladesDown s) (hnode : s.node = .load) (htaken : takenKept s) (l : Lane) :
    bladesKept (startPulse s l) := by
  refine ⟨fun _ => hnode, fun m => ?_, htaken⟩
  obtain ⟨hslot, harmed, hthrown, hcoil⟩ := h m
  show laneKept s.node (.pulse l s.now) m (s.grants.slots.get m) ((s.blades.set l { Blade.absent with coil := true }).get m)
  rw [hslot, PerLane.get_set]
  split
  · next hm =>
    subst hm
    exact laneKept_free (by decide) (by decide) (by simp)
  · next hm => exact laneKept_free harmed hthrown (by simp [hcoil, Ne.symm hm])

theorem judged_blades (s : State) (valid : Bool) : (judged s valid).blades = s.blades ∧ (judged s valid).grants = s.grants ∧
    (judged s valid).line = s.line := by
  unfold judged; simp only; split <;> exact ⟨rfl, rfl, rfl⟩

theorem bladesKept_finishRead {s : State} (hs : bladesKept s) (hnode : s.node = .load) (hpulse : ∀ l t, s.sup.load ≠ .pulse l t)
    (strap : Bool) : bladesKept (finishRead strap s) := by
  have hdown := bladesDown_of_kept hs (by rw [hnode]; decide) hpulse
  have hjudged : ∀ valid, bladesDown (judged (readDone s) valid) ∧ takenKept (judged (readDone s) valid) := fun valid => by
    obtain ⟨hb, hg, hl⟩ := judged_blades (readDone s) valid
    unfold bladesDown takenKept
    rw [hb, hg, hl]
    exact ⟨hdown, hs.2.2⟩
  unfold finishRead
  simp only
  split
  · exact bladesKept_startPulse (hjudged _).1 ((judged_node _ _).trans hnode) (hjudged _).2 _
  · exact bladesKept_leaveLoad (hjudged _).1 _ _

theorem bladesKept_finishPulse {s : State} (hs : bladesKept s) (hnode : s.node = .load) {l : Lane} {t : Time}
    (hpulse : s.sup.load = .pulse l t) (present strap : Bool) : bladesKept (finishPulse l present strap s) := by
  have hdown : bladesDown (s.setBlade l (testedBlade present)) := by
    intro m
    obtain ⟨hout, _, _, hcoil, _⟩ := hs.2.1 m
    obtain ⟨hslot, harmed, hthrown⟩ := hout (by rw [hnode]; decide)
    refine ⟨hslot, ?_⟩
    rw [State.setBlade_blades, PerLane.get_set]
    split
    · cases present <;> decide
    · next hm =>
      refine ⟨harmed, hthrown, ?_⟩
      rw [Bool.eq_false_iff]
      intro hc
      rcases hcoil.1 hc with ht | ⟨t', ht⟩
      · exact hthrown ht
      · rw [hpulse] at ht
        cases ht
        exact hm rfl
  have htaken : ∀ f ∈ s.line.queue, f.isTaken = false := by
    intro f hf
    by_contra hft
    obtain ⟨m, g, hm, _⟩ := hs.2.2 f hf (by simpa using hft)
    rw [((hs.2.1 m).1 (by rw [hnode]; decide)).1] at hm
    cases hm
  unfold finishPulse
  simp only
  split
  · exact bladesKept_of_down hdown (fun _ => hnode) (fun _ _ => by simp) htaken
  · exact bladesKept_leaveLoad (by exact hdown) _ _

/-! ## The tick -/

theorem LoadWork.cap_idle {now : Time} {x : LoadWork} : x.cap now = .idle ↔ x = .idle := by cases x <;> simp [LoadWork.cap]

theorem LoadWork.cap_pulse {now : Time} {x : LoadWork} {l : Lane} :
    (∃ t, x.cap now = .pulse l t) ↔ ∃ t, x = .pulse l t := by cases x <;> simp [LoadWork.cap]

theorem TxFrame.cap_isTaken (now : Time) (f : TxFrame) : (f.cap now).isTaken = f.isTaken := by
  unfold TxFrame.isTaken TxFrame.cap
  cases f.body <;> rfl

theorem laneKept_cap {node : NodeState} {load : LoadWork} {l : Lane} {slot : Option Grant} {b : Blade}
    (h : laneKept node load l slot b) (now : Time) :
    laneKept node (load.cap now) l (slot.map (Grant.cap now)) (b.cap now) := by
  obtain ⟨hout, hcommitted, hrest, hcoil, htimes⟩ := h
  refine ⟨fun hne => ?_, hcommitted.trans ?_, ?_, ?_, htimes⟩
  · obtain ⟨hslot, hstate⟩ := hout hne
    exact ⟨by rw [hslot]; rfl, hstate⟩
  · cases slot <;> simp [Grant.cap]
  · intro g hg hprov
    obtain ⟨g', hg', rfl⟩ := Option.map_eq_some_iff.1 hg
    exact hrest g' hg' hprov
  · rw [LoadWork.cap_pulse]; exact hcoil

theorem bladesKept_tick {s : State} (hs : bladesKept s) : bladesKept (tick s) := by
  unfold tick
  split
  · exact hs
  · have ⟨hwork, hlanes, htaken⟩ := hs
    refine ⟨fun h => hwork (fun e => h ?_), fun l => ?_, fun f hf hft => ?_⟩
    · exact LoadWork.cap_idle.2 e
    · show laneKept s.node (s.sup.load.cap _) l ((s.grants.slots.map (Option.map (Grant.cap _))).get l) ((s.blades.map (Blade.cap _)).get l)
      rw [PerLane.get_map, PerLane.get_map]
      exact laneKept_cap (hlanes l) _
    · obtain ⟨f', hf', rfl⟩ := List.mem_map.1 (show f ∈ s.line.queue.map (TxFrame.cap _) from hf)
      rw [TxFrame.cap_isTaken] at hft
      obtain ⟨l, g, hl, hg, hframe⟩ := htaken f' hf' hft
      refine ⟨l, g.cap (Time.plus s.now 1), ?_, hg, hframe⟩
      show (s.grants.slots.map (Option.map (Grant.cap _))).get l = _
      rw [PerLane.get_map, hl]
      rfl

/-! ## All commands -/

theorem bladesKept_taker {s : State} (hs : bladesKept s) (kind : FrameKind) (f : GoodFrame) (t : Time) : bladesKept (taker kind f t s) := by
  by_cases hx : kind = .cfgx
  · subst hx
    simp only [taker, takeCfgx]
    split
    · exact bladesKept_enterLoad s
    · exact hs
  by_cases hp : kind = .pass
  · subst hp
    exact bladesKept_takePass hs f t
  have hq := taker_queues hx f t s
  have hsame : (taker kind f t s).sup.load = s.sup.load ∧ (taker kind f t s).grants.slots = s.grants.slots ∧
      (taker kind f t s).blades = s.blades := by
    cases kind with
    | bind =>
      simp only [taker, takeBind]
      split
      · next p _ =>
        split
        · obtain ⟨_, _, _, h⟩ := judgeProposal_frame s p
          rw [h]; exact ⟨rfl, rfl, rfl⟩
        · exact ⟨rfl, rfl, rfl⟩
      · exact ⟨rfl, rfl, rfl⟩
    | heat =>
      simp only [taker, takeHeat]
      split
      · obtain ⟨_, _, h⟩ := applyHeat_frame s
        rw [h]; exact ⟨rfl, rfl, rfl⟩
      · exact ⟨rfl, rfl, rfl⟩
    | join =>
      simp only [taker, takeJoin]
      split
      · obtain ⟨_, _, _, h⟩ := joinTaken_frame s f.originator
        rw [h]; exact ⟨rfl, rfl, rfl⟩
      · exact ⟨rfl, rfl, rfl⟩
    | cfgr =>
      simp only [taker, takeCfgr]
      split <;> exact ⟨rfl, rfl, rfl⟩
    | cfgw =>
      simp only [taker, takeCfgw]
      split <;> exact ⟨rfl, rfl, rfl⟩
    | beacon => exact ⟨rfl, rfl, rfl⟩
    | cfgd => exact ⟨rfl, rfl, rfl⟩
    | pass => exact absurd rfl hp
    | cfgx => exact absurd rfl hx
  exact bladesKept_of_queues hs hq hsame.1 hsame.2.1 hsame.2.2

theorem bladesKept_received {s : State} (hs : bladesKept s) (kind : FrameKind) (bits : List Bool) (phase : BitVec 3) :
    bladesKept (effect (received kind bits phase) s) := by
  refine received_keeps hs (bladesKept_enterFault hs) (fun f t _ => bladesKept_taker ?_ kind f t)
  obtain ⟨_, _, h⟩ := heard_frameEnded_frame s f
  rw [h]; exact hs

theorem bladesKept_trackPowerAbsent {s : State} (hs : bladesKept s) (high : Bool) : bladesKept (trackPowerAbsent high s) := by
  unfold trackPowerAbsent
  simp only
  split
  · exact hs
  iterate 3 exact bladesKept_goOff _
  iterate 2
    next h => exact bladesKept_retentionChecked (bladesKept_enterHoldup (by exact hs) (by show s.node.live = true; rw [h]; rfl))
  exact bladesKept_retentionChecked (by exact hs)

theorem bladesKept_reportChange {s : State} (hs : bladesKept s) (l : Lane) (old : Option CarCode) : bladesKept (reportChange s l old) := by
  obtain ⟨_, _, _, _, _, _, _, _, h⟩ := reportChange_frame s l old
  exact bladesKept_of_queues hs (reportChange_queues s l old) (by rw [h]) (by rw [h]) (by rw [h])

theorem bladesKept_effect (c : Instr) {s : State} (hs : bladesKept s) : bladesKept (effect c s) := by
  cases c with
  | irEdge l x y =>
    obtain ⟨_, _, _, _, _, _, _, _, h⟩ := irEdge_frame l x y s
    exact bladesKept_of_queues hs (irEdge_queues l x y s) (congrArg (·.sup.load) h) (congrArg (·.grants.slots) h) (congrArg (·.blades) h)
  | passageClose l =>
    show bladesKept (passageClose l s)
    unfold passageClose
    simp only
    split
    · split
      · split
        · exact hs
        · exact bladesKept_handOver (by exact hs) _
      · exact hs
    all_goals exact hs
  | stallDeclaration l =>
    show bladesKept (stallDeclaration l s)
    unfold stallDeclaration
    simp only
    split
    · split
      · exact bladesKept_reportChange (bladesKept_handOver (by exact hs) _) l none
      · exact hs
    all_goals exact hs
  | stallEnd l =>
    obtain ⟨_, _, _, _, _, _, _, _, h⟩ := stallEnd_frame l s
    exact bladesKept_of_queues hs (stallEnd_queues l s) (congrArg (·.sup.load) h) (congrArg (·.grants.slots) h) (congrArg (·.blades) h)
  | noticeComplete l =>
    obtain ⟨_, h⟩ := noticeComplete_frame l s
    exact bladesKept_of_eq h hs
  | blankingEnd l =>
    obtain ⟨_, h⟩ := blankingEnd_frame l s
    exact bladesKept_of_eq h hs
  | handsetFrame levels span =>
    obtain ⟨_, _, _, _, _, _, _, h⟩ := handsetFrame_frame levels span s
    exact bladesKept_of_queues hs (handsetFrame_queues levels span s) (congrArg (·.sup.load) h) (congrArg (·.grants.slots) h)
      (congrArg (·.blades) h)
  | handsetStaleRemoval a =>
    obtain ⟨_, _, _, _, _, _, _, h⟩ := handsetStaleRemoval_frame a s
    exact bladesKept_of_queues hs (handsetStaleRemoval_queues a s) (congrArg (·.sup.load) h) (congrArg (·.grants.slots) h)
      (congrArg (·.blades) h)
  | requestExpiry a =>
    obtain ⟨_, h⟩ := requestExpiry_frame a s
    exact bladesKept_of_eq h hs
  | gestureLapse a =>
    obtain ⟨_, _, _, _, _, _, _, h⟩ := gestureLapse_frame a s
    exact bladesKept_of_queues hs (gestureLapse_queues a s) (congrArg (·.sup.load) h) (congrArg (·.grants.slots) h) (congrArg (·.blades) h)
  | noticeRunRepeat l =>
    obtain ⟨_, _, h⟩ := noticeRunRepeat_frame l s
    exact bladesKept_of_eq h hs
  | saveComplete =>
    obtain ⟨_, _, _, _, h⟩ := saveComplete_frame s
    exact bladesKept_of_eq h hs
  | occupancyExpiry i =>
    obtain ⟨_, h⟩ := occupancyExpiry_frame i s
    exact bladesKept_of_eq h hs
  | laneHoldEnd l =>
    obtain ⟨_, h⟩ := laneHoldEnd_frame l s
    exact bladesKept_of_eq h hs
  | approachExpiry i =>
    obtain ⟨_, h⟩ := approachExpiry_frame i s
    exact bladesKept_of_eq h hs
  | neighbourSilence side => exact hs
  | grantLate l =>
    show bladesKept (grantLate l s)
    unfold grantLate
    split
    · split
      · exact bladesKept_withdraw hs (by decide) l
      · exact hs
    · exact hs
  | claimExpiry i =>
    obtain ⟨_, h⟩ := claimExpiry_frame i s
    exact bladesKept_of_eq h hs
  | coilPulseEnd present strap =>
    show bladesKept (coilPulseEnd present strap s)
    unfold coilPulseEnd
    split
    · next hpulse =>
      split
      · next hdue => exact bladesKept_finishPulse hs hdue.1 hpulse _ _
      · exact hs
    all_goals exact hs
  | bladeThrow l => exact bladesKept_bladeThrow hs l
  | bladeRelease l => exact bladesKept_bladeRelease hs l
  | coolingEnd l => exact bladesKept_coolingEnd hs l
  | openCoil l x y => exact bladesKept_openCoil hs l x y
  | attemptStart phase =>
    obtain ⟨_, _, h⟩ := attemptStart_frame phase s
    exact bladesKept_of_eq h hs
  | arbitrationLoss i =>
    obtain ⟨_, h⟩ := arbitrationLoss_frame i s
    exact bladesKept_of_eq h hs
  | bitFault i =>
    obtain ⟨_, h⟩ := bitFault_frame i s
    exact bladesKept_of_eq h hs
  | attemptComplete =>
    show bladesKept (attemptComplete s)
    unfold attemptComplete
    split
    · split
      · exact bladesKept_completeSend hs _
      · exact hs
    all_goals exact hs
  | frameDeadline i =>
    show bladesKept (frameDeadline i s)
    unfold frameDeadline
    split
    · next f _ =>
      split
      · unfold removeLate
        split
        · split
          · unfold takenRemoved
            split
            · split
              · exact bladesKept_withdraw hs (by decide) _
              · exact bladesKept_removeFrame hs _
            · exact bladesKept_removeFrame hs _
          · exact bladesKept_removeFrame hs _
        all_goals exact bladesKept_removeFrame hs _
      · exact hs
    · exact hs
  | beaconTimer =>
    show bladesKept (beaconTimer s)
    unfold beaconTimer
    split
    · split
      · refine bladesKept_restartBeacon ?_
        have hold : bladesKept (removeOldBeacon s) := by
          unfold removeOldBeacon
          split
          · exact bladesKept_removeFrame hs _
          · exact hs
        exact bladesKept_of_queues hold (queueBeacon_queues _) rfl rfl rfl
      · exact hs
    · exact hs
  | frameDiscarded bits =>
    obtain ⟨_, _, h⟩ := frameDiscarded_frame bits s
    exact bladesKept_of_eq h hs
  | passReceived bits phase => exact bladesKept_received hs .pass bits phase
  | bindReceived bits phase => exact bladesKept_received hs .bind bits phase
  | joinReceived bits phase => exact bladesKept_received hs .join bits phase
  | heatReceived bits phase => exact bladesKept_received hs .heat bits phase
  | beaconReceived bits phase => exact bladesKept_received hs .beacon bits phase
  | cfgdReceived bits phase => exact bladesKept_received hs .cfgd bits phase
  | cfgrReceived bits phase => exact bladesKept_received hs .cfgr bits phase
  | cfgwReceived bits phase => exact bladesKept_received hs .cfgw bits phase
  | cfgxReceived bits phase => exact bladesKept_received hs .cfgx bits phase
  | configWriteComplete =>
    obtain ⟨_, _, _, _, h⟩ := configWriteComplete_frame s
    exact bladesKept_of_eq h hs
  | powerOn held =>
    show bladesKept (powerOn held s)
    unfold powerOn
    split
    · exact bladesKept_enterLoad _
    · exact hs
  | loadReadComplete strap =>
    show bladesKept (loadReadComplete strap s)
    unfold loadReadComplete
    split
    · next hread =>
      split
      · next hdue => exact bladesKept_finishRead hs hdue.1 (fun l t h => by rw [hread] at h; cases h) _
      · exact hs
    all_goals exact hs
  | syncEnd =>
    show bladesKept (syncEnd s)
    unfold syncEnd
    split
    · split
      · next hdue =>
        have ⟨hwork, hlanes, htaken⟩ := hs
        have hidle := load_idle hs (by rw [hdue.1]; decide)
        refine ⟨fun h => absurd hidle h, fun l => ?_, htaken⟩
        obtain ⟨_, hrest⟩ := hlanes l
        exact ⟨fun h => absurd rfl h, hrest⟩
      · exact hs
    · exact hs
  | trackPowerAbsent high => exact bladesKept_trackPowerAbsent hs high
  | trackPowerReturn =>
    obtain ⟨_, _, h⟩ := trackPowerReturn_frame s
    exact bladesKept_of_eq h hs
  | debounceComplete =>
    show bladesKept (debounceComplete s)
    unfold debounceComplete
    split
    · split
      · next hdue =>
        have hidle := load_idle hs (by rw [hdue.1]; decide)
        exact bladesKept_enterSync (bladesDown_of_kept hs (by rw [hdue.1]; decide) (fun l t h => by rw [hidle] at h; cases h))
      · exact hs
    · exact hs
  | retentionLow =>
    show bladesKept (retentionLow s)
    unfold retentionLow
    split
    · exact bladesKept_goOff s
    · exact hs
  | resetAssert =>
    show bladesKept (resetAssert s)
    unfold resetAssert
    split
    · exact hs
    · exact bladesKept_enterLoad _
  | resetRelease =>
    show bladesKept (resetRelease s)
    unfold resetRelease
    split
    · next h =>
      obtain ⟨hnode, hheld⟩ := h
      obtain ⟨_, hlanes, htaken⟩ := hs
      refine ⟨fun _ => hnode, fun l => ?_, htaken⟩
      have hl := hlanes l
      rw [bladeKept_iff, hheld] at hl
      obtain ⟨hout, hcommitted, hrest, hcoil, htimes⟩ := hl
      exact ⟨hout, hcommitted, hrest, by simpa using hcoil, htimes⟩
    · exact hs
  | heatPress =>
    obtain ⟨_, _, _, _, _, _, h⟩ := heatPress_frame s
    exact bladesKept_of_queues hs (heatPress_queues s) (congrArg (·.sup.load) h) (congrArg (·.grants.slots) h) (congrArg (·.blades) h)
  | tick => exact bladesKept_tick hs
  | levelSettled l x y =>
    obtain ⟨_, h⟩ := levelSettled_frame l x y s
    exact bladesKept_of_eq h hs
  | lineReady bits =>
    obtain ⟨_, _, h⟩ := lineReady_frame bits s
    exact bladesKept_of_eq h hs
  | coilPulseStart =>
    show bladesKept (coilPulseStart s)
    unfold coilPulseStart
    split
    · next hrest =>
      split
      · next hdue =>
        exact bladesKept_startPulse (bladesDown_of_kept hs (by rw [hdue.1]; decide) (fun l t h => by rw [hrest] at h; cases h))
          hdue.1 hs.2.2 _
      · exact hs
    all_goals exact hs
  | heatInputReleased =>
    obtain ⟨_, h⟩ := heatInputReleased_frame s
    exact bladesKept_of_eq h hs
  | retentionEnds =>
    show bladesKept (retentionEnds s)
    unfold retentionEnds
    split
    · exact hs
    · exact bladesKept_goOff s

/-- Settles O8: every command keeps slots and blades in agreement. -/
theorem bladesInvariantKept : Obligations.BladesInvariantKept :=
  step_keeps (fun _ _ h => h) (fun c _ h => bladesKept_effect c h)

end Sys2Proof.Machine
end

/-! # The section line: silent where it must be, the transmit queue in order (R143, R146, R154, R157) -/

section
namespace Sys2Proof.Machine

open Sys2Proof.Safety

/-! ## The queue -/

/-- An element entered in order keeps an order that the test follows. -/
theorem pairwise_enterInOrder {α : Type} {p : α → Bool} {R : α → α → Prop} {x : α} {xs : List α} (hR : xs.Pairwise R)
    (hbefore : ∀ y ∈ xs, p y = false → R y x) (hafter : ∀ y ∈ xs, p y = true → R x y)
    (hmono : ∀ y ∈ xs, ∀ z ∈ xs, R y z → p y = true → p z = true) : (enterInOrder p x xs).Pairwise R := by
  induction xs with
  | nil => simp [enterInOrder]
  | cons y ys ih =>
    obtain ⟨hy, hys⟩ := List.pairwise_cons.1 hR
    have hsub : ∀ z ∈ ys, z ∈ y :: ys := fun z hz => List.mem_cons_of_mem y hz
    have hhead : y ∈ y :: ys := List.mem_cons_self
    unfold enterInOrder
    split
    · next hpy =>
      refine List.pairwise_cons.2 ⟨fun z hz => ?_, hR⟩
      rcases List.mem_cons.1 hz with rfl | hz
      · exact hafter z hhead hpy
      · exact hafter z (hsub z hz) (hmono y hhead z (hsub z hz) (hy z hz) hpy)
    · next hpy =>
      refine List.pairwise_cons.2 ⟨fun z hz => ?_, ?_⟩
      · rcases (mem_enterInOrder _ _ _ _).1 hz with rfl | hz
        · exact hbefore y hhead (by simpa using hpy)
        · exact hy z hz
      · exact ih hys (fun z hz => hbefore z (hsub z hz)) (fun z hz => hafter z (hsub z hz))
          (fun z hz w hw => hmono z (hsub z hz) w (hsub w hw))

/-- R154: how two frames stand in the queue. -/
def standsBefore (now : Time) (a b : TxFrame) : Prop :=
  a.level.toNat < b.level.toNat ∨ (a.level = b.level ∧ Time.diff b.queued now ≤ Time.diff a.queued now ∧ a.id < b.id)

/-- What `lineKept` asks of the queue and the next number. -/
structure QueueKept (node : NodeState) (now : Time) (q : List TxFrame) (n : Nat) : Prop where
  silent : silent node → q = []
  setup : node = .setup → ∀ f ∈ q, f.body.kind = .cfgd
  order : q.Pairwise (standsBefore now)
  age : ∀ f ∈ q, 0 ≤ Time.diff f.queued now ∧ Time.diff f.queued now ≤ 1048576
  distinct : q.Pairwise (fun a b => a.id ≠ b.id)
  below : ∀ f ∈ q, f.id < n
  level : ∀ f ∈ q, f.level = 0 ↔ f.body.kind = .pass

theorem QueueKept.nil (node : NodeState) (now : Time) (n : Nat) : QueueKept node now [] n where
  silent _ := rfl
  setup _ := by simp
  order := .nil
  age := by simp
  distinct := .nil
  below := by simp
  level := by simp

theorem QueueKept.sublist {node : NodeState} {now : Time} {q r : List TxFrame} {n m : Nat} (h : QueueKept node now q n)
    (hr : r.Sublist q) (hm : n ≤ m) : QueueKept node now r m where
  silent hs := List.sublist_nil.1 (h.silent hs ▸ hr)
  setup hs f hf := h.setup hs f (hr.subset hf)
  order := h.order.sublist hr
  age f hf := h.age f (hr.subset hf)
  distinct := h.distinct.sublist hr
  below f hf := Nat.lt_of_lt_of_le (h.below f (hr.subset hf)) hm
  level f hf := h.level f (hr.subset hf)

theorem not_accepts_of_silent {node : NodeState} {b : FrameBody} (h : Safety.silent node) : acceptsFrame node b = false := by
  rcases h with rfl | rfl | rfl | rfl <;> rfl

/-- R154: a frame handed in now under the next number, entered in its place. -/
theorem QueueKept.enterFrame {node : NodeState} {now : Time} {q : List TxFrame} {n : Nat} {f : TxFrame} (h : QueueKept node now q n)
    (hid : f.id = n) (hqueued : f.queued = now) (hlevel : f.level = 0 ↔ f.body.kind = .pass)
    (haccepts : acceptsFrame node f.body = true) : QueueKept node now (enterFrame f q) (n + 1) := by
  have hmem : ∀ {P : TxFrame → Prop}, P f → (∀ g ∈ q, P g) → ∀ g ∈ Machine.enterFrame f q, P g := by
    intro P hf hq g hg
    rw [Machine.enterFrame, mem_enterInOrder] at hg
    rcases hg with rfl | hg
    · exact hf
    · exact hq g hg
  constructor
  case silent =>
    intro hs
    rw [not_accepts_of_silent hs] at haccepts
    cases haccepts
  case setup =>
    intro hs
    subst hs
    exact hmem (by simpa [acceptsFrame] using haccepts) (h.setup rfl)
  case order =>
    refine pairwise_enterInOrder h.order (fun y hy hlater => ?_) (fun y _ hlater => .inl (by simpa using hlater)) ?_
    · have hle : y.level.toNat ≤ f.level.toNat := by simpa using hlater
      rcases Nat.lt_or_eq_of_le hle with hlt | heq
      · exact .inl hlt
      · refine .inr ⟨BitVec.eq_of_toNat_eq heq, ?_, by rw [hid]; exact h.below y hy⟩
        rw [hqueued, Time.diff_self]
        exact (h.age y hy).1
    · intro y _ z _ hyz hlater
      have hlt : f.level.toNat < y.level.toNat := by simpa using hlater
      rcases hyz with hyz | ⟨heq, _⟩
      · simp only [decide_eq_true_eq]; omega
      · rw [← heq]; exact hlater
  case age => exact hmem (by rw [hqueued, Time.diff_self]; decide) h.age
  case distinct =>
    refine (enterInOrder_perm _ f q).symm.pairwise (List.pairwise_cons.2 ⟨fun g hg => ?_, h.distinct⟩) (fun hab => Ne.symm hab)
    have := h.below g hg
    omega
  case below => exact hmem (by omega) (fun g hg => Nat.lt_succ_of_lt (h.below g hg))
  case level => exact hmem hlevel h.level

theorem QueueMoved.kept {allowed : FrameBody → Prop} {node : NodeState} {now : Time} {q r : List TxFrame} {n m : Nat}
    (h : QueueMoved allowed node now q n r m) (hq : QueueKept node now q n) : QueueKept node now r m := by
  induction h with
  | refl => exact hq
  | handedIn _ f hid hqueued hlevel _ ih =>
    rcases queueAfter_spec node now f _ with e | ⟨haccepts, _, _, hroom, e⟩
    · rw [e]
      exact ih.sublist (List.Sublist.refl _) (Nat.le_succ _)
    · rw [e]
      exact (ih.sublist (makeRoom_spec _ _ hroom).1 (Nat.le_refl _)).enterFrame hid hqueued hlevel haccepts
  | takenOut _ p ih => exact ih.sublist List.filter_sublist (Nat.le_refl _)

/-! ## The controller -/

/-- What `lineKept` asks of line state, send status and BEACON timer. -/
structure WireKept (node : NodeState) (c : LineController) : Prop where
  silent : silent node → ∀ a, c.send ≠ .sending a
  beacon : c.beacon.isSome = true ↔ node.live = true
  frame : c.send ≠ .idle ↔ c.state = .frame

theorem lineKept_iff (s : State) : lineKept s ↔
    WireKept s.node s.line ∧ QueueKept s.node s.now s.line.queue s.line.nextId := by
  constructor
  · rintro ⟨hsilent, hsetup, hbeacon, hframe, horder, hage, hdistinct, hbelow, hlevel⟩
    exact ⟨⟨fun h => (hsilent h).2, hbeacon, hframe⟩, fun h => (hsilent h).1, hsetup, horder, hage, hdistinct, hbelow, hlevel⟩
  · rintro ⟨⟨hsending, hbeacon, hframe⟩, hempty, hsetup, horder, hage, hdistinct, hbelow, hlevel⟩
    exact ⟨fun h => ⟨hempty h, hsending h⟩, hsetup, hbeacon, hframe, horder, hage, hdistinct, hbelow, hlevel⟩

/-- Another writing of the state. -/
theorem lineKept_of_eq {s t : State} (h : s = t) (ht : lineKept t) : lineKept s := h ▸ ht

/-- What the blocks do to the queue. -/
theorem lineKept_of_queues {allowed : FrameBody → Prop} {s t : State} (hs : lineKept s) (hq : Queues allowed s t) : lineKept t := by
  obtain ⟨hwire, hqueue⟩ := (lineKept_iff s).1 hs
  refine (lineKept_iff t).2 ⟨?_, ?_⟩
  · rw [hq.node, hq.line]
    exact ⟨hwire.silent, hwire.beacon, hwire.frame⟩
  · rw [hq.node, hq.now]
    exact hq.moved.kept hqueue

/-- The line state and the send status change. -/
theorem lineKept_setSend {s : State} {x : LineState} {y : SendStatus} (hs : lineKept s)
    (hsilent : silent s.node → ∀ a, y ≠ .sending a) (hframe : y ≠ .idle ↔ x = .frame) :
    lineKept ((s.setLineState x).setSend y) := by
  obtain ⟨hwire, hqueue⟩ := (lineKept_iff s).1 hs
  exact (lineKept_iff _).2 ⟨⟨hsilent, hwire.beacon, hframe⟩, hqueue⟩

theorem lineKept_frameEnded {s : State} (hs : lineKept s) : lineKept (frameEnded s) :=
  lineKept_setSend hs (fun _ a => by simp) (by simp)

/-- R143: an empty controller in a state without a BEACON timer. -/
theorem lineKept_silent {s : State} {n : Nat} (h : s.line = LineController.silent n) (hnode : s.node.live = false) : lineKept s := by
  refine (lineKept_iff s).2 ⟨⟨fun _ a => ?_, ?_, ?_⟩, ?_⟩
  · simp [h, LineController.silent]
  · simp [h, LineController.silent, hnode]
  · simp [h, LineController.silent]
  · rw [h]
    exact .nil _ _ _

/-! ## The node's own attempts -/

theorem not_silent_of_drives {node : NodeState} (h : node.drives = true) : ¬ silent node := by
  rintro (rfl | rfl | rfl | rfl) <;> cases h

theorem not_silent_of_live {node : NodeState} (h : node.live = true) : ¬ silent node := by
  rintro (rfl | rfl | rfl | rfl) <;> cases h

theorem lineKept_attemptStart {s : State} (hs : lineKept s) (phase : BitVec 3) : lineKept (attemptStart phase s) := by
  unfold attemptStart
  split
  · split
    · next h =>
      have hdrives := (Bool.and_eq_true_iff.1 h).1
      exact lineKept_setSend hs (fun hsil => absurd hsil (not_silent_of_drives hdrives)) (by simp)
    · exact hs
  · exact hs

/-- R148, R149: an attempt under way becomes a reception. -/
theorem lineKept_receiver {s : State} {a : Attempt} {y : SendStatus} (hs : lineKept s) (ha : s.line.send = .sending a)
    (hsending : ∀ b, y ≠ .sending b) (hidle : y ≠ .idle) : lineKept (s.setSend y) := by
  have hframe : s.line.state = .frame := ((lineKept_iff s).1 hs).1.frame.1 (by rw [ha]; simp)
  have h := lineKept_setSend (x := s.line.state) hs (fun _ => hsending) (iff_of_true hidle hframe)
  exact h

theorem lineKept_arbitrationLoss {s : State} (hs : lineKept s) (i : Nat) : lineKept (arbitrationLoss i s) := by
  unfold arbitrationLoss
  split
  · next ha =>
    split
    · exact lineKept_receiver hs ha (by simp) (by simp)
    · exact hs
  all_goals exact hs

theorem lineKept_bitFault {s : State} (hs : lineKept s) (i : Nat) : lineKept (bitFault i s) := by
  unfold bitFault
  split
  · next ha =>
    split
    · exact lineKept_receiver hs ha (by simp) (by simp)
    · exact hs
  all_goals exact hs

/-- R157: the BEACON timer is set in SYNC and RUN. -/
theorem lineKept_restartBeacon {s : State} (hs : lineKept s) : lineKept (restartBeacon s) := by
  unfold restartBeacon
  split
  · next hlive =>
    obtain ⟨hwire, hqueue⟩ := (lineKept_iff s).1 hs
    exact (lineKept_iff _).2 ⟨⟨hwire.silent, iff_of_true rfl hlive, hwire.frame⟩, hqueue⟩
  · exact hs

theorem lineKept_completeSend {s : State} (hs : lineKept s) (f : TxFrame) : lineKept (completeSend s f) := by
  have hremoved : lineKept (removeFrame (frameEnded s) f.id) := lineKept_of_queues (lineKept_frameEnded hs) (removeFrame_queues _ _)
  refine lineKept_restartBeacon ?_
  unfold reportSent
  split
  · next l _ =>
    obtain ⟨_, _, h⟩ := frameSent_frame (removeFrame (frameEnded s) f.id) l f.id
    rw [h]; exact hremoved
  all_goals exact hremoved

theorem lineKept_beaconDue {s : State} (hs : lineKept s) : lineKept (beaconDue s) :=
  lineKept_restartBeacon (lineKept_of_queues hs ((removeOldBeacon_queues s).trans (queueBeacon_queues _)))

/-! ## The bits read -/

theorem SendStatus.hear_ne_idle {x : SendStatus} (b : Bool) : x.hear b ≠ .idle ↔ x ≠ .idle := by
  cases x <;> simp [SendStatus.hear]

theorem SendStatus.hear_sending {x : SendStatus} {b : Bool} {a : Attempt} (h : x.hear b = .sending a) : x = .sending a := by
  cases x <;> simp_all [SendStatus.hear]

theorem LineState.counted_ne_frame (n : Nat) (b : Bool) : LineState.counted n b ≠ .frame := by
  unfold LineState.counted
  split
  · split <;> simp
  · simp

theorem WireKept.read {node : NodeState} {c : LineController} (h : WireKept node c) (b : Bool) : WireKept node (c.read b) := by
  have hrest := h.frame
  unfold LineController.read
  split
  · next n hn =>
    rw [hn] at hrest
    refine ⟨h.silent, h.beacon, ?_⟩
    show c.send ≠ .idle ↔ LineState.counted n b = .frame
    exact hrest.trans (iff_of_false (by simp) (LineState.counted_ne_frame n b))
  · split
    · exact h
    · exact ⟨fun _ a => by simp, h.beacon, by simp⟩
  · exact ⟨fun hs a ha => h.silent hs a (SendStatus.hear_sending ha), h.beacon, (SendStatus.hear_ne_idle b).trans hrest⟩

theorem WireKept.readAll {node : NodeState} {bits : List Bool} {c d : LineController} (h : WireKept node c)
    (hd : LineController.readAll bits c = some d) : WireKept node d := by
  induction bits generalizing c with
  | nil =>
    unfold LineController.readAll at hd
    split at hd <;> cases hd
    exact h
  | cons b rest ih =>
    unfold LineController.readAll at hd
    split at hd
    · cases hd
    · exact ih (h.read b) hd

theorem lineKept_lineReady {s : State} (hs : lineKept s) (bits : List Bool) : lineKept (lineReady bits s) := by
  unfold lineReady
  split
  · split
    · next c hc =>
      obtain ⟨hwire, hqueue⟩ := (lineKept_iff s).1 hs
      refine (lineKept_iff _).2 ⟨hwire.readAll hc, ?_⟩
      show QueueKept s.node s.now c.queue c.nextId
      rw [LineController.readAll_frame hc]
      exact hqueue
    · exact hs
  · exact hs

/-! ## The node states -/

theorem lineKept_enterFault {s : State} (hs : lineKept s) : lineKept (enterFault (frameEnded s)) := by
  obtain ⟨hwire, _⟩ := (lineKept_iff _).1 (lineKept_frameEnded hs)
  exact (lineKept_iff _).2 ⟨⟨fun _ a => by simp [enterFault, frameEnded, SendStatus.stopped], by simp [enterFault, NodeState.live],
    hwire.frame⟩, .nil _ _ _⟩

theorem lineKept_goOff (s : State) : lineKept (goOff s) := lineKept_silent rfl rfl

theorem lineKept_enterLoad (s : State) : lineKept (enterLoad s) := by
  unfold enterLoad powerChecked
  split
  · exact lineKept_silent rfl rfl
  · exact lineKept_goOff _

theorem lineKept_enterHoldup (s : State) : lineKept (enterHoldup s) := by
  unfold enterHoldup startSave
  split <;> exact lineKept_silent rfl rfl

theorem lineKept_retentionChecked {s : State} (hs : lineKept s) : lineKept (retentionChecked s) := by
  unfold retentionChecked
  split
  · exact hs
  · exact lineKept_goOff s

/-- R157, R167: SYNC is entered with an empty queue and the BEACON timer running. -/
theorem lineKept_enterSync (s : State) : lineKept (enterSync s) := by
  have hentered : lineKept (portOn (syncEntered s)) :=
    (lineKept_iff _).2 ⟨⟨fun h => absurd h (not_silent_of_live rfl), iff_of_true rfl rfl,
      by simp [portOn, syncEntered, LineController.silent]⟩, .nil _ _ _⟩
  exact lineKept_of_queues hentered (queueJoin_queues _)

theorem lineKept_leaveLoad (s : State) (strap valid : Bool) : lineKept (leaveLoad s strap valid) := by
  unfold leaveLoad
  simp only
  split
  · exact lineKept_silent rfl rfl
  · exact lineKept_enterSync _

theorem judged_now (s : State) (valid : Bool) : (judged s valid).now = s.now := by
  unfold judged; simp only; split <;> rfl

theorem lineKept_judged {s : State} (hs : lineKept s) (valid : Bool) : lineKept (judged s valid) := by
  unfold judged
  simp only
  split <;> exact hs

theorem lineKept_finishRead {s : State} (hs : lineKept s) (strap : Bool) : lineKept (finishRead strap s) := by
  unfold finishRead
  simp only
  split
  · exact lineKept_judged (s := readDone s) hs _
  · exact lineKept_leaveLoad _ _ _

theorem lineKept_finishPulse {s : State} (hs : lineKept s) (l : Lane) (present strap : Bool) :
    lineKept (finishPulse l present strap s) := by
  unfold finishPulse
  simp only
  split
  · exact hs
  · exact lineKept_leaveLoad _ _ _

theorem lineKept_trackPowerAbsent {s : State} (hs : lineKept s) (high : Bool) : lineKept (trackPowerAbsent high s) := by
  unfold trackPowerAbsent
  simp only
  split
  · exact hs
  iterate 3 exact lineKept_goOff _
  iterate 2 exact lineKept_retentionChecked (lineKept_enterHoldup _)
  exact lineKept_retentionChecked (by exact hs)

/-! ## The tick -/

/-- One tick on, a past stamp's age is one more, held at 2^20. -/
theorem capStamp_age {q now : Time} (h : 0 ≤ Time.diff q now) (h' : Time.diff q now ≤ 1048576) :
    Time.diff (capStamp (Time.plus now 1) q) (Time.plus now 1) = min 1048576 (Time.diff q now + 1) := by
  have hstep : Time.diff now (Time.plus now 1) = 1 := by
    have := Time.diff_shift now 0 1 (by decide) (by decide)
    rw [Time.shift_zero] at this
    rw [Time.plus_eq_shift]
    exact this
  have hage := Time.diff_trans q now (Time.plus now 1) (by omega) (by omega)
  have hcap : Time.diff (Time.minus (Time.plus now 1) 1048576) (Time.plus now 1) = 1048576 := by
    have := Time.diff_shift (Time.plus now 1) (-1048576) 0 (by decide) (by decide)
    rw [Time.shift_zero] at this
    rw [Time.minus_eq_shift]
    exact this
  unfold capStamp Config.ageCap
  split
  · rw [hcap]; omega
  · omega

theorem TxFrame.cap_kind (now : Time) (f : TxFrame) : (f.cap now).body.kind = f.body.kind := by
  unfold TxFrame.cap
  cases f.body <;> rfl

theorem QueueKept.tick {node : NodeState} {now : Time} {q : List TxFrame} {n : Nat} (h : QueueKept node now q n) :
    QueueKept node (Time.plus now 1) (q.map (TxFrame.cap (Time.plus now 1))) n where
  silent hs := by rw [h.silent hs]; rfl
  setup hs f hf := by
    obtain ⟨g, hg, rfl⟩ := List.mem_map.1 hf
    rw [TxFrame.cap_kind]
    exact h.setup hs g hg
  order := by
    refine List.pairwise_map.2 (h.order.imp_of_mem fun {a b} ha hb hab => ?_)
    rcases hab with hlt | ⟨hlevel, hage, hid⟩
    · exact .inl hlt
    · refine .inr ⟨hlevel, ?_, hid⟩
      show Time.diff (capStamp _ b.queued) _ ≤ Time.diff (capStamp _ a.queued) _
      rw [capStamp_age (h.age a ha).1 (h.age a ha).2, capStamp_age (h.age b hb).1 (h.age b hb).2]
      omega
  age f hf := by
    obtain ⟨g, hg, rfl⟩ := List.mem_map.1 hf
    obtain ⟨h0, h1⟩ := h.age g hg
    show 0 ≤ Time.diff (capStamp _ g.queued) _ ∧ Time.diff (capStamp _ g.queued) _ ≤ 1048576
    rw [capStamp_age h0 h1]
    omega
  distinct := List.pairwise_map.2 h.distinct
  below f hf := by
    obtain ⟨g, hg, rfl⟩ := List.mem_map.1 hf
    exact h.below g hg
  level f hf := by
    obtain ⟨g, hg, rfl⟩ := List.mem_map.1 hf
    rw [TxFrame.cap_kind]
    exact h.level g hg

theorem lineKept_tick {s : State} (hs : lineKept s) : lineKept (tick s) := by
  unfold tick
  split
  · exact hs
  · obtain ⟨hwire, hqueue⟩ := (lineKept_iff s).1 hs
    refine (lineKept_iff _).2 ⟨⟨hwire.silent, ?_, hwire.frame⟩, hqueue.tick⟩
    show (capOption _ s.line.beacon).isSome = true ↔ _
    rw [capOption, Option.isSome_map]
    exact hwire.beacon

/-! ## All commands -/

theorem lineKept_received {s : State} (hs : lineKept s) (kind : FrameKind) (bits : List Bool) (phase : BitVec 3) :
    lineKept (effect (received kind bits phase) s) := by
  refine received_keeps hs (fun _ => lineKept_enterFault hs) (fun f t _ => ?_)
  have hheard : lineKept (heard (frameEnded s) f) := by
    obtain ⟨_, _, h⟩ := heard_frame (frameEnded s) f
    have hended := lineKept_frameEnded hs
    rw [h]; exact hended
  by_cases hx : kind = .cfgx
  · subst hx
    simp only [taker, takeCfgx]
    split
    · exact lineKept_enterLoad _
    · exact hheard
  · exact lineKept_of_queues hheard (taker_queues hx f t _)

theorem lineKept_effect (c : Instr) {s : State} (hs : lineKept s) : lineKept (effect c s) := by
  cases c with
  | irEdge l x y => exact lineKept_of_queues hs (irEdge_queues l x y s)
  | passageClose l => exact lineKept_of_queues hs (passageClose_queues l s)
  | stallDeclaration l => exact lineKept_of_queues hs (stallDeclaration_queues l s)
  | stallEnd l => exact lineKept_of_queues hs (stallEnd_queues l s)
  | noticeComplete l =>
    obtain ⟨_, h⟩ := noticeComplete_frame l s
    exact lineKept_of_eq h hs
  | blankingEnd l =>
    obtain ⟨_, h⟩ := blankingEnd_frame l s
    exact lineKept_of_eq h hs
  | handsetFrame levels span => exact lineKept_of_queues hs (handsetFrame_queues levels span s)
  | handsetStaleRemoval a => exact lineKept_of_queues hs (handsetStaleRemoval_queues a s)
  | requestExpiry a =>
    obtain ⟨_, h⟩ := requestExpiry_frame a s
    exact lineKept_of_eq h hs
  | gestureLapse a => exact lineKept_of_queues hs (gestureLapse_queues a s)
  | noticeRunRepeat l =>
    obtain ⟨_, _, h⟩ := noticeRunRepeat_frame l s
    exact lineKept_of_eq h hs
  | saveComplete =>
    obtain ⟨_, _, _, _, h⟩ := saveComplete_frame s
    exact lineKept_of_eq h hs
  | occupancyExpiry i =>
    obtain ⟨_, h⟩ := occupancyExpiry_frame i s
    exact lineKept_of_eq h hs
  | laneHoldEnd l =>
    obtain ⟨_, h⟩ := laneHoldEnd_frame l s
    exact lineKept_of_eq h hs
  | approachExpiry i =>
    obtain ⟨_, h⟩ := approachExpiry_frame i s
    exact lineKept_of_eq h hs
  | neighbourSilence side => exact hs
  | grantLate l => exact lineKept_of_queues hs (grantLate_queues l s)
  | claimExpiry i =>
    obtain ⟨_, h⟩ := claimExpiry_frame i s
    exact lineKept_of_eq h hs
  | coilPulseEnd present strap =>
    show lineKept (coilPulseEnd present strap s)
    unfold coilPulseEnd
    split
    · split
      · exact lineKept_finishPulse hs _ _ _
      · exact hs
    all_goals exact hs
  | bladeThrow l =>
    obtain ⟨_, h⟩ := bladeThrow_frame l s
    exact lineKept_of_eq h hs
  | bladeRelease l =>
    obtain ⟨_, _, _, h⟩ := bladeRelease_frame l s
    exact lineKept_of_eq h hs
  | coolingEnd l =>
    obtain ⟨_, h⟩ := coolingEnd_frame l s
    exact lineKept_of_eq h hs
  | openCoil l x y =>
    obtain ⟨_, _, _, _, h⟩ := openCoil_frame l x y s
    exact lineKept_of_eq h hs
  | attemptStart phase => exact lineKept_attemptStart hs phase
  | arbitrationLoss i => exact lineKept_arbitrationLoss hs i
  | bitFault i => exact lineKept_bitFault hs i
  | attemptComplete =>
    show lineKept (attemptComplete s)
    unfold attemptComplete
    split
    · split
      · exact lineKept_completeSend hs _
      · exact hs
    all_goals exact hs
  | frameDeadline i => exact lineKept_of_queues hs (frameDeadline_queues i s)
  | beaconTimer =>
    show lineKept (beaconTimer s)
    unfold beaconTimer
    split
    · split
      · exact lineKept_beaconDue hs
      · exact hs
    · exact hs
  | frameDiscarded bits =>
    show lineKept (frameDiscarded bits s)
    unfold frameDiscarded
    split
    · exact lineKept_frameEnded hs
    · exact hs
  | passReceived bits phase => exact lineKept_received hs .pass bits phase
  | bindReceived bits phase => exact lineKept_received hs .bind bits phase
  | joinReceived bits phase => exact lineKept_received hs .join bits phase
  | heatReceived bits phase => exact lineKept_received hs .heat bits phase
  | beaconReceived bits phase => exact lineKept_received hs .beacon bits phase
  | cfgdReceived bits phase => exact lineKept_received hs .cfgd bits phase
  | cfgrReceived bits phase => exact lineKept_received hs .cfgr bits phase
  | cfgwReceived bits phase => exact lineKept_received hs .cfgw bits phase
  | cfgxReceived bits phase => exact lineKept_received hs .cfgx bits phase
  | configWriteComplete =>
    obtain ⟨_, _, _, _, h⟩ := configWriteComplete_frame s
    exact lineKept_of_eq h hs
  | powerOn held =>
    show lineKept (powerOn held s)
    unfold powerOn
    split
    · exact lineKept_enterLoad _
    · exact hs
  | loadReadComplete strap =>
    show lineKept (loadReadComplete strap s)
    unfold loadReadComplete
    split
    · split
      · exact lineKept_finishRead hs _
      · exact hs
    all_goals exact hs
  | syncEnd =>
    show lineKept (syncEnd s)
    unfold syncEnd
    split
    · split
      · next hdue =>
        obtain ⟨hwire, hqueue⟩ := (lineKept_iff s).1 hs
        rw [hdue.1] at hwire hqueue
        exact (lineKept_iff _).2 ⟨⟨fun h => absurd h (not_silent_of_live rfl), hwire.beacon.trans (iff_of_true rfl rfl),
          hwire.frame⟩, fun h => absurd h (not_silent_of_live rfl), nofun, hqueue.order, hqueue.age,
          hqueue.distinct, hqueue.below, hqueue.level⟩
      · exact hs
    · exact hs
  | trackPowerAbsent high => exact lineKept_trackPowerAbsent hs high
  | trackPowerReturn =>
    obtain ⟨_, _, h⟩ := trackPowerReturn_frame s
    exact lineKept_of_eq h hs
  | debounceComplete =>
    show lineKept (debounceComplete s)
    unfold debounceComplete
    split
    · split
      · exact lineKept_enterSync s
      · exact hs
    · exact hs
  | retentionLow =>
    show lineKept (retentionLow s)
    unfold retentionLow
    split
    · exact lineKept_goOff s
    · exact hs
  | resetAssert =>
    show lineKept (resetAssert s)
    unfold resetAssert
    split
    · exact hs
    · exact lineKept_enterLoad _
  | resetRelease =>
    obtain ⟨_, _, _, h⟩ := resetRelease_frame s
    exact lineKept_of_eq h hs
  | heatPress => exact lineKept_of_queues hs (heatPress_queues s)
  | tick => exact lineKept_tick hs
  | levelSettled l x y =>
    obtain ⟨_, h⟩ := levelSettled_frame l x y s
    exact lineKept_of_eq h hs
  | lineReady bits => exact lineKept_lineReady hs bits
  | coilPulseStart =>
    obtain ⟨_, _, h⟩ := coilPulseStart_frame s
    exact lineKept_of_eq h hs
  | heatInputReleased =>
    obtain ⟨_, h⟩ := heatInputReleased_frame s
    exact lineKept_of_eq h hs
  | retentionEnds =>
    show lineKept (retentionEnds s)
    unfold retentionEnds
    split
    · exact hs
    · exact lineKept_goOff s

/-- Settles O9: every command keeps the line as `lineKept` says. -/
theorem lineInvariantKept : Obligations.LineInvariantKept :=
  step_keeps (fun _ _ h => h) (fun c _ h => lineKept_effect c h)

end Sys2Proof.Machine
end

/-! # The collections: within their capacities, one entry for an identified car, in order (R37, R77, R85, R128, R154) -/

section
namespace Sys2Proof.Machine

open Sys2Proof.Safety

/-! ## What most blocks do: nothing is entered in the approach list and the claim table -/

theorem QueueMoved.length {allowed : FrameBody → Prop} {node : NodeState} {now : Time} {q r : List TxFrame} {n m : Nat}
    (h : QueueMoved allowed node now q n r m) (hq : q.length ≤ Config.queueCap) : r.length ≤ Config.queueCap := by
  induction h with
  | refl => exact hq
  | handedIn _ f _ _ _ _ ih => exact queueAfter_length node now f _ ih
  | takenOut _ p ih => exact (List.length_filter_le _ _).trans ih

/-- Each collection stays within its capacity, approach list and claim table lose entries only, and where the time changes
both are empty. -/
structure Shrunk (s t : State) : Prop where
  now : t.now = s.now ∨ t.occ.approach = [] ∧ t.grants.claims = []
  handsets : s.handsets.length ≤ Config.handsetCap → t.handsets.length ≤ Config.handsetCap
  list : s.occ.list.length ≤ Config.occupancyCap → t.occ.list.length ≤ Config.occupancyCap
  queue : s.line.queue.length ≤ Config.queueCap → t.line.queue.length ≤ Config.queueCap
  approach : t.occ.approach.Sublist s.occ.approach
  claims : t.grants.claims.Sublist s.grants.claims

theorem Shrunk.refl (s : State) : Shrunk s s := ⟨.inl rfl, id, id, id, List.Sublist.refl _, List.Sublist.refl _⟩

theorem Shrunk.trans {s t u : State} (h : Shrunk s t) (k : Shrunk t u) : Shrunk s u where
  now := by
    rcases k.now with hk | hk
    · rcases h.now with hh | ⟨ha, hc⟩
      · exact .inl (hk.trans hh)
      · exact .inr ⟨List.sublist_nil.1 (ha ▸ k.approach), List.sublist_nil.1 (hc ▸ k.claims)⟩
    · exact .inr hk
  handsets hs := k.handsets (h.handsets hs)
  list hs := k.list (h.list hs)
  queue hs := k.queue (h.queue hs)
  approach := k.approach.trans h.approach
  claims := k.claims.trans h.claims

theorem Shrunk.of_queues {allowed : FrameBody → Prop} {s t : State} (hq : Queues allowed s t)
    (hhandsets : t.handsets.length ≤ s.handsets.length) (hlist : t.occ.list.length ≤ s.occ.list.length)
    (happroach : t.occ.approach.Sublist s.occ.approach) (hclaims : t.grants.claims.Sublist s.grants.claims) : Shrunk s t where
  now := .inl hq.now
  handsets := hhandsets.trans
  list := hlist.trans
  queue := hq.moved.length
  approach := happroach
  claims := hclaims

/-- A change that writes none of the collections. -/
theorem Shrunk.of_eq {s t : State} (hnow : t.now = s.now) (hhandsets : t.handsets = s.handsets) (hlist : t.occ.list = s.occ.list)
    (hqueue : t.line.queue = s.line.queue) (happroach : t.occ.approach = s.occ.approach)
    (hclaims : t.grants.claims = s.grants.claims) : Shrunk s t := by
  refine ⟨.inl hnow, ?_, ?_, ?_, ?_, ?_⟩
  · rw [hhandsets]; exact id
  · rw [hlist]; exact id
  · rw [hqueue]; exact id
  · rw [happroach]
  · rw [hclaims]

/-- Everything but the handset table and the occupancy list is emptied. -/
theorem Shrunk.of_empty {s t : State} (hhandsets : t.handsets.length ≤ s.handsets.length) (hlist : t.occ.list = [])
    (hqueue : t.line.queue = []) (happroach : t.occ.approach = []) (hclaims : t.grants.claims = []) : Shrunk s t := by
  refine ⟨.inr ⟨happroach, hclaims⟩, hhandsets.trans, ?_, ?_, ?_, ?_⟩
  · rw [hlist]; exact fun _ => Nat.zero_le _
  · rw [hqueue]; exact fun _ => Nat.zero_le _
  · rw [happroach]; exact List.nil_sublist _
  · rw [hclaims]; exact List.nil_sublist _

/-! ## Bindings and reports -/

theorem toldUnbound_length (s : State) (h : HandsetAddr) : (toldUnbound s h).handsets.length ≤ s.handsets.length := by
  unfold toldUnbound
  split
  · exact Nat.le_refl _
  · split
    · split
      · exact List.length_filter_le _ _
      · exact Nat.le_refl _
    · exact Nat.le_refl _

theorem foldl_toldUnbound_length (hs : List HandsetAddr) (s : State) :
    (hs.foldl toldUnbound s).handsets.length ≤ s.handsets.length := by
  induction hs generalizing s with
  | nil => exact Nat.le_refl _
  | cons h hs ih => exact (ih _).trans (toldUnbound_length s h)

theorem applyProposal_length (s : State) (p : Proposal) : (applyProposal s p).handsets.length ≤ s.handsets.length := by
  unfold applyProposal
  simp only
  split
  · split
    · exact Nat.le_refl _
    · exact toldUnbound_length { s with bind := { s.bind with entries := p.entries s.bind.entries, unsaved := true } } _
  · exact Nat.le_refl _

theorem judgeProposal_length (s : State) (p : Proposal) : (judgeProposal s p).handsets.length ≤ s.handsets.length := by
  unfold judgeProposal
  split
  · exact applyProposal_length s p
  · exact Nat.le_refl _

theorem localBind_length (s : State) (l : Lane) (p : Proposal) : (localBind s l p).handsets.length ≤ s.handsets.length := by
  unfold localBind
  split
  · obtain ⟨_, _, h⟩ := startRun_frame (queueLiveBind (applyProposal s p) p.car) l p.car
    rw [h]
    exact applyProposal_length s p
  · exact Nat.le_refl _

theorem judgeLocal_shrunk (s : State) : Shrunk s (judgeLocal s) := by
  have hlength : (judgeLocal s).handsets.length ≤ s.handsets.length :=
    judgeLocal_keeps (P := fun t => t.handsets.length ≤ s.handsets.length) (Nat.le_refl _) (fun _ l p => localBind_length s l p)
  have hq := judgeLocal_queues s
  obtain ⟨_, _, _, _, _, _, _, h⟩ := judgeLocal_frame s
  exact .of_queues hq hlength (by rw [h]) (by rw [h]) (by rw [h])

theorem reportChange_shrunk (s : State) (l : Lane) (old : Option CarCode) : Shrunk s (reportChange s l old) := by
  unfold reportChange
  split
  · next c _ =>
    split
    · exact .refl s
    · have hcode : Shrunk s (occupancyCode s l c) :=
        .of_queues (allowed := FrameBody.plain) (.of_line rfl rfl rfl) (Nat.le_refl _)
          (Nat.le_of_eq (List.length_map ..)) (List.Sublist.refl _) (List.Sublist.refl _)
      refine hcode.trans ?_
      unfold reportCode codeReported
      split
      · obtain ⟨_, h⟩ := endRunOnCode_frame (occupancyCode s l c) l c
        refine Shrunk.trans (t := endRunOnCode (occupancyCode s l c) l c) ?_ (judgeLocal_shrunk _)
        rw [h]; exact .of_eq rfl rfl rfl rfl rfl rfl
      · exact .refl _
  · exact .refl s

theorem stallEndReported_shrunk (s : State) (l : Lane) : Shrunk s (stallEndReported s l) := by
  unfold stallEndReported
  split
  · exact Shrunk.trans (t := s.setRun l none) (.of_eq rfl rfl rfl rfl rfl rfl) (judgeLocal_shrunk _)
  · exact .refl s

/-! ## The end of a grant and the rechecks -/

theorem endGrant_shrunk {o : Outcome} (ho : o ≠ .taken) (s : State) (l : Lane) (g : Grant) : Shrunk s (endGrant s l g o) := by
  have hq := endGrant_queues ho s l g
  obtain ⟨_, _, _, h⟩ := endGrant_frame s l g o
  exact .of_queues hq (by rw [h]) (by rw [h]; exact List.length_filter_le _ _) (by rw [h]) (by rw [h])

theorem removeFrame_shrunk (s : State) (id : Nat) : Shrunk s (removeFrame s id) := by
  have hq := removeFrame_queues s id
  obtain ⟨_, _, _, h⟩ := removeFrame_frame s id
  exact .of_queues hq (by rw [h]) (by rw [h]) (by rw [h]) (by rw [h])

theorem withdraw_shrunk {o : Outcome} (ho : o ≠ .taken) (s : State) (l : Lane) : Shrunk s (withdraw s l o) := by
  unfold withdraw
  split
  · next g _ =>
    split
    · refine Shrunk.trans (t := removeTaken s g) ?_ (endGrant_shrunk ho _ l g)
      unfold removeTaken
      split
      · exact removeFrame_shrunk s _
      · exact .refl s
    · exact .refl s
  · exact .refl s

theorem abort_shrunk (s : State) (l : Lane) : Shrunk s (abort s l) := by
  unfold abort
  split
  · next g _ =>
    split
    · refine Shrunk.trans (t := standDownBlade s l) ?_ (endGrant_shrunk (by decide) _ l g)
      obtain ⟨_, h⟩ := standDownBlade_frame s l
      rw [h]; exact .of_eq rfl rfl rfl rfl rfl rfl
    · exact .refl s
  · exact .refl s

theorem recheck_shrunk (s : State) (r : Option ApproachRecord) : Shrunk s (recheck s r) :=
  recheck_keeps (P := Shrunk s) (fun t l h => h.trans (withdraw_shrunk (by decide) t l)) (fun t l h => h.trans (abort_shrunk t l))
    r (.refl s)

/-! ## Decisions -/

theorem ladder_shrunk (s : State) (c : Candidate) : Shrunk s (ladder s c).1 :=
  ladder_keeps (P := Shrunk s) (.refl s) (abort_shrunk s _) (withdraw_shrunk (by decide) s _)

/-- R83: with room made, an occupancy entry is entered. -/
theorem makeOccupancyRoom_length {s : State} (h : s.occ.list.length ≤ Config.occupancyCap) :
    (makeOccupancyRoom s).occ.list.length < Config.occupancyCap := by
  unfold makeOccupancyRoom
  split
  · next hlt => exact hlt
  · next hfull =>
    have hne : s.occ.list ≠ [] := by
      rintro e
      rw [e] at hfull
      exact hfull (by decide)
    have hlt : occupancyVictim s.occ.list < s.occ.list.length := earliest_lt _ _ hne
    have herased : (s.occ.list.eraseIdx (occupancyVictim s.occ.list)).length < Config.occupancyCap := by
      rw [List.length_eraseIdx_of_lt hlt]
      omega
    simp only [List.getElem?_eq_getElem hlt]
    split
    · next e t _ =>
      obtain ⟨_, hh⟩ := holdRequest_frame (s.setOccupancy (s.occ.list.eraseIdx (occupancyVictim s.occ.list)))
        s.occ.list[occupancyVictim s.occ.list].lane t
      rw [hh]; exact herased
    · exact herased

theorem enterOccupancy_shrunk (s : State) (e : OccupancyEntry) : Shrunk s (enterOccupancy s e) := by
  have hlist : s.occ.list.length ≤ Config.occupancyCap → (enterOccupancy s e).occ.list.length ≤ Config.occupancyCap := fun h => by
    show ((makeOccupancyRoom s).occ.list ++ [e]).length ≤ _
    rw [List.length_append, List.length_singleton]
    exact makeOccupancyRoom_length h
  obtain ⟨_, _, h⟩ := enterOccupancy_frame s e
  rw [h] at hlist ⊢
  exact ⟨.inl rfl, id, hlist, id, List.Sublist.refl _, List.Sublist.refl _⟩

theorem settleTarget_shrunk (s : State) (c : Candidate) (d : Decided) : Shrunk s (settleTarget s c d) := by
  unfold settleTarget
  split
  iterate 3 exact enterOccupancy_shrunk s _
  all_goals exact .refl s

theorem updateHandset_shrunk (s : State) (a : HandsetAddr) (f : HandsetEntry → HandsetEntry) : Shrunk s (s.updateHandset a f) :=
  .of_queues (allowed := FrameBody.plain) (.of_line rfl rfl rfl) (Nat.le_of_eq (List.length_map ..)) (Nat.le_refl _)
    (List.Sublist.refl _) (List.Sublist.refl _)

theorem settle_shrunk (s : State) (c : Candidate) (d : Decided) : Shrunk s (settle s c d) := by
  have hrequest : Shrunk s (settleRequest s c d.outcome) := by
    unfold settleRequest
    split
    · exact updateHandset_shrunk s _ _
    · exact .refl s
  have horder : ∀ u, Shrunk u (settleOrder u c d.outcome) := fun u => by
    unfold settleOrder
    split
    · split
      · exact .of_eq rfl rfl rfl rfl rfl rfl
      · exact .refl u
    · exact .refl u
  have hnotice : ∀ u, Shrunk u (settleNotice u c d) := fun u => by
    have hq := settleNotice_queues u c d
    have hsame : (settleNotice u c d).handsets = u.handsets ∧ (settleNotice u c d).occ = u.occ ∧
        (settleNotice u c d).grants.claims = u.grants.claims := by
      unfold settleNotice
      split <;> exact ⟨rfl, rfl, rfl⟩
    obtain ⟨hh, ho, hc⟩ := hsame
    exact .of_queues hq (by rw [hh]) (by rw [ho]) (by rw [ho]) (by rw [hc])
  exact ((hrequest.trans (horder _)).trans (settleTarget_shrunk _ c d)).trans (hnotice _)

theorem takeRecord_shrunk (s : State) (r : PassageRecord) : Shrunk s (takeRecord s r) := by
  have hmatch : Shrunk s (matchArrival s r) := by
    refine .of_queues (allowed := FrameBody.plain) (.of_line rfl rfl rfl) (Nat.le_refl _) (Nat.le_refl _) ?_ (List.Sublist.refl _)
    show (matchedApproach s.working r s.occ.approach).Sublist _
    unfold matchedApproach
    split
    · exact List.filter_sublist
    · exact List.eraseP_sublist
  exact (hmatch.trans (enterOccupancy_shrunk _ _)).trans (.of_eq rfl rfl rfl rfl rfl rfl)

theorem handOver_shrunk (s : State) (r : PassageRecord) : Shrunk s (handOver s r) := by
  unfold handOver
  split
  · exact (takeRecord_shrunk s r).trans ((ladder_shrunk _ _).trans (settle_shrunk _ _ _))
  · split
    · exact takeRecord_shrunk s r
    · exact .refl s

/-! ## Handsets -/

theorem removeHandset_shrunk (s : State) (e : HandsetEntry) : Shrunk s (removeHandset s e) := by
  have hdrop : Shrunk s (s.dropHandset e.address) :=
    .of_queues (allowed := FrameBody.plain) (.of_line rfl rfl rfl) (List.length_filter_le _ _) (Nat.le_refl _)
      (List.Sublist.refl _) (List.Sublist.refl _)
  unfold removeHandset
  split
  · exact hdrop.trans (judgeLocal_shrunk _)
  · exact hdrop

/-- A handset entry that is removed makes room. -/
theorem removeHandset_length {s : State} {e : HandsetEntry} (he : e ∈ s.handsets) :
    (removeHandset s e).handsets.length < s.handsets.length := by
  have hdrop : (s.dropHandset e.address).handsets.length < s.handsets.length := by
    show (s.handsets.filter _).length < _
    rw [List.length_filter_lt_length_iff_exists]
    exact ⟨e, he, by simp⟩
  unfold removeHandset
  split
  · have hjudged : (judgeLocal (s.dropHandset e.address)).handsets.length ≤ (s.dropHandset e.address).handsets.length :=
      judgeLocal_keeps (P := fun t => t.handsets.length ≤ (s.dropHandset e.address).handsets.length) (Nat.le_refl _)
        (fun _ l p => localBind_length _ l p)
    exact Nat.lt_of_le_of_lt hjudged hdrop
  · exact hdrop

theorem makeHandsetRoom_shrunk {s t : State} (h : makeHandsetRoom s = some t) :
    Shrunk s t ∧ (s.handsets.length ≤ Config.handsetCap → t.handsets.length < Config.handsetCap) := by
  unfold makeHandsetRoom at h
  split at h
  · next hlt =>
    cases h
    exact ⟨.refl s, fun _ => hlt⟩
  · obtain ⟨e, he, rfl⟩ := Option.map_eq_some_iff.1 h
    have hmem : e ∈ s.handsets := by
      unfold evictedHandset at he
      exact List.mem_of_mem_filter (List.mem_of_getElem? he)
    exact ⟨removeHandset_shrunk s e, fun hs => Nat.lt_of_lt_of_le (removeHandset_length hmem) hs⟩

theorem pressTaken_shrunk (s : State) (a : HandsetAddr) : Shrunk s (pressTaken s a) := by
  unfold pressTaken
  split
  · exact .of_eq rfl rfl rfl rfl rfl rfl
  · exact .refl s

theorem programTaken_shrunk (s : State) (a : HandsetAddr) (d : Dir) (v : Nat) : Shrunk s (programTaken s a d v) := by
  unfold programTaken
  split
  · exact .of_eq rfl rfl rfl rfl rfl rfl
  · exact .refl s

theorem takeCounts_shrunk (s : State) (f : HandsetFrame) (e : HandsetEntry) : Shrunk s (takeCounts s f e) := by
  have hpress : Shrunk s (takePress s f e) := by
    unfold takePress
    split
    · exact .refl s
    · exact (updateHandset_shrunk s _ _).trans (pressTaken_shrunk _ _)
  have hprogram : ∀ u, Shrunk u (takeProgram u f e) := fun u => by
    unfold takeProgram
    split
    · exact .refl u
    · exact (updateHandset_shrunk u _ _).trans (programTaken_shrunk _ _ _ _)
  unfold takeCounts
  split
  · exact updateHandset_shrunk s _ _
  · exact hpress.trans (hprogram _)

theorem takeGesture_shrunk (s : State) (f : HandsetFrame) (e : HandsetEntry) : Shrunk s (takeGesture s f e) := by
  unfold takeGesture
  simp only
  split
  · exact updateHandset_shrunk _ _ _
  · exact (updateHandset_shrunk _ f.address _).trans (judgeLocal_shrunk _)

theorem acceptFrame_shrunk (s : State) (f : HandsetFrame) : Shrunk s (acceptFrame s f) := by
  unfold acceptFrame
  split
  · next e _ =>
    exact (updateHandset_shrunk s f.address _).trans ((takeCounts_shrunk _ f e).trans (takeGesture_shrunk _ f e))
  · unfold firstSighting
    split
    · next t ht =>
      obtain ⟨hroom, hlength⟩ := makeHandsetRoom_shrunk ht
      have hentered : Shrunk s { t with handsets := t.handsets ++ [f.firstEntry s.now] } := by
        refine ⟨hroom.now, fun hs => ?_, hroom.list, hroom.queue, hroom.approach, hroom.claims⟩
        rw [List.length_append, List.length_singleton]
        exact hlength hs
      simp only
      split
      · exact hentered.trans (judgeLocal_shrunk _)
      · exact hentered
    · exact .refl s

/-! ## The node states -/

theorem goOff_shrunk (s t : State) : Shrunk s (goOff t) := .of_empty (Nat.zero_le _) rfl rfl rfl rfl

theorem enterLoad_shrunk (s t : State) : Shrunk s (enterLoad t) := by
  unfold enterLoad powerChecked
  split
  · exact .of_empty (Nat.zero_le _) rfl rfl rfl rfl
  · exact goOff_shrunk _ _

theorem enterHoldup_shrunk (s : State) : Shrunk s (enterHoldup s) := by
  have hentered : Shrunk s (holdupEntered s) := .of_empty (Nat.le_of_eq (List.length_map ..)) rfl rfl rfl rfl
  unfold enterHoldup startSave
  split
  · exact hentered.trans (.of_eq rfl rfl rfl rfl rfl rfl)
  · exact hentered

theorem retentionChecked_shrunk (s : State) : Shrunk s (retentionChecked s) := by
  unfold retentionChecked
  split
  · exact .refl s
  · exact goOff_shrunk _ _

/-- A new controller, and a change outside the collections. -/
theorem shrunk_of_silent {s t : State} (hnow : t.now = s.now) (hhandsets : t.handsets.length ≤ s.handsets.length)
    (hlist : t.occ.list.length ≤ s.occ.list.length) (hqueue : t.line.queue = []) (happroach : t.occ.approach = s.occ.approach)
    (hclaims : t.grants.claims.Sublist s.grants.claims) : Shrunk s t where
  now := .inl hnow
  handsets := hhandsets.trans
  list := hlist.trans
  queue _ := by rw [hqueue]; exact Nat.zero_le _
  approach := by rw [happroach]
  claims := hclaims

theorem enterFault_shrunk (s : State) : Shrunk s (enterFault s) :=
  shrunk_of_silent rfl (Nat.le_of_eq (List.length_map ..)) (Nat.le_of_eq (List.length_map ..)) rfl rfl (List.nil_sublist _)

theorem enterSync_shrunk (s : State) : Shrunk s (enterSync s) := by
  have hentered : Shrunk s (portOn (syncEntered s)) := by
    refine shrunk_of_silent rfl ?_ (Nat.le_refl _) rfl rfl (List.Sublist.refl _)
    show (List.map _ (List.filter _ s.handsets)).length ≤ _
    rw [List.length_map]
    exact List.length_filter_le _ _
  exact hentered.trans (.of_queues (queueJoin_queues _) (Nat.le_refl _) (Nat.le_refl _) (List.Sublist.refl _) (List.Sublist.refl _))

theorem leaveLoad_shrunk (s : State) (strap valid : Bool) : Shrunk s (leaveLoad s strap valid) := by
  unfold leaveLoad
  simp only
  split
  · exact shrunk_of_silent rfl (Nat.le_refl _) (Nat.le_refl _) rfl rfl (List.Sublist.refl _)
  · refine Shrunk.trans (t := { s with
      pins := { s.pins with strapHeld := strap }
      occ := { s.occ with up := { s.occ.up with address := s.working.upstream },
                          down := { s.occ.down with address := s.working.downstream } } })
      (.of_eq rfl rfl rfl rfl rfl rfl) (enterSync_shrunk _)

theorem judged_shrunk (s : State) (valid : Bool) : Shrunk s (judged s valid) := by
  unfold judged
  simp only
  split <;> exact .of_eq rfl rfl rfl rfl rfl rfl

theorem finishRead_shrunk (s : State) (strap : Bool) : Shrunk s (finishRead strap s) := by
  have hjudged : ∀ valid, Shrunk s (judged (readDone s) valid) := fun valid =>
    Shrunk.trans (t := readDone s) (.of_eq rfl rfl rfl rfl rfl rfl) (judged_shrunk _ _)
  unfold finishRead
  simp only
  split
  · exact (hjudged _).trans (.of_eq rfl rfl rfl rfl rfl rfl)
  · exact (hjudged _).trans (leaveLoad_shrunk _ _ _)

theorem finishPulse_shrunk (s : State) (l : Lane) (present strap : Bool) : Shrunk s (finishPulse l present strap s) := by
  unfold finishPulse
  simp only
  split
  · exact .of_eq rfl rfl rfl rfl rfl rfl
  · exact Shrunk.trans (t := { (s.setBlade l (testedBlade present)) with
      pins := { s.pins with coilCurrent := s.pins.coilCurrent.set l present } }) (.of_eq rfl rfl rfl rfl rfl rfl)
      (leaveLoad_shrunk _ _ _)

theorem trackPowerAbsent_shrunk (s : State) (high : Bool) : Shrunk s (trackPowerAbsent high s) := by
  have hpins : Shrunk s { s with pins := { s.pins with trackPower := false, retentionHigh := high } } :=
    .of_eq rfl rfl rfl rfl rfl rfl
  unfold trackPowerAbsent
  simp only
  split
  · exact .refl s
  iterate 3 exact goOff_shrunk _ _
  iterate 2 exact hpins.trans ((enterHoldup_shrunk _).trans (retentionChecked_shrunk _))
  exact Shrunk.trans (t := { s with pins := { s.pins with trackPower := false, retentionHigh := high },
                                    sup := { s.sup with debounce := none } }) (.of_eq rfl rfl rfl rfl rfl rfl)
    (retentionChecked_shrunk _)

theorem passConsumes_shrunk (s : State) (p : PassNotice) : Shrunk s (passConsumes s p) := by
  unfold passConsumes
  split
  · exact updateHandset_shrunk s _ _
  · exact .refl s

theorem applyHeat_shrunk (s : State) : Shrunk s (applyHeat s) := by
  have hlength : (applyHeat s).handsets.length ≤ s.handsets.length := by
    unfold applyHeat heatRequests
    rw [List.length_map]
    exact foldl_toldUnbound_length _ { s with bind := { s.bind with entries := s.bind.entries.map Binding.heated,
                                                                    unsaved := s.bind.unsaved || !(heatFreed s.bind.entries).isEmpty } }
  have hq := applyHeat_queues s
  obtain ⟨_, _, h⟩ := applyHeat_frame s
  exact .of_queues hq hlength (by rw [h]) (by rw [h]) (by rw [h])

theorem heatPress_shrunk (s : State) : Shrunk s (heatPress s) := by
  unfold heatPress
  split
  · split
    · unfold heatPressTaken
      split
      · have hqueued : ∀ u, Shrunk u (queueHeat u) := fun u =>
          .of_queues (queueHeat_queues u) (Nat.le_refl _) (Nat.le_refl _) (List.Sublist.refl _) (List.Sublist.refl _)
        exact Shrunk.trans (t := { s with sup := { s.sup with heatReleased := none } }) (.of_eq rfl rfl rfl rfl rfl rfl)
          ((hqueued _).trans (applyHeat_shrunk _))
      · exact .of_eq rfl rfl rfl rfl rfl rfl
    · exact .refl s
  · exact .refl s

/-! ## The takers but that of PASS -/

theorem taker_shrunk {kind : FrameKind} (hkind : kind ≠ .pass) (f : GoodFrame) (t : Time) (s : State) : Shrunk s (taker kind f t s) := by
  cases kind with
  | pass => exact absurd rfl hkind
  | bind =>
    simp only [taker, takeBind]
    split
    · next p _ =>
      split
      · have hlength := judgeProposal_length s p
        obtain ⟨_, _, _, h⟩ := judgeProposal_frame s p
        rw [h] at hlength ⊢
        exact .of_queues (allowed := FrameBody.plain) (.of_line rfl rfl rfl) hlength (Nat.le_refl _) (List.Sublist.refl _)
          (List.Sublist.refl _)
      · exact .refl s
    · exact .refl s
  | heat =>
    simp only [taker, takeHeat]
    split
    · exact applyHeat_shrunk s
    · exact .refl s
  | join =>
    simp only [taker, takeJoin]
    split
    · have hq := joinTaken_queues s f.originator
      obtain ⟨_, _, _, h⟩ := joinTaken_frame s f.originator
      exact .of_queues hq (by rw [h]) (by rw [h]) (by rw [h]) (by rw [h])
    · exact .refl s
  | cfgr =>
    simp only [taker, takeCfgr]
    split
    · exact .of_queues (queueCfgd_queues s) (Nat.le_refl _) (Nat.le_refl _) (List.Sublist.refl _) (List.Sublist.refl _)
    · exact .refl s
  | cfgw =>
    simp only [taker, takeCfgw]
    split
    · exact .of_eq rfl rfl rfl rfl rfl rfl
    · exact .refl s
  | cfgx =>
    simp only [taker, takeCfgx]
    split
    · exact enterLoad_shrunk _ _
    · exact .refl s
  | beacon => exact .refl s
  | cfgd => exact .refl s

theorem frameEnded_shrunk (s : State) : Shrunk s (frameEnded s) := .of_eq rfl rfl rfl rfl rfl rfl

theorem heard_frameEnded_shrunk (s : State) (f : GoodFrame) : Shrunk s (heard (frameEnded s) f) := by
  obtain ⟨_, _, h⟩ := heard_frameEnded_frame s f
  rw [h]; exact .of_eq rfl rfl rfl rfl rfl rfl

theorem received_shrunk {kind : FrameKind} (hkind : kind ≠ .pass) (bits : List Bool) (phase : BitVec 3) (s : State) :
    Shrunk s (effect (received kind bits phase) s) :=
  received_keeps (P := Shrunk s) (.refl s) (fun _ => (frameEnded_shrunk s).trans (enterFault_shrunk _))
    (fun f t _ => (heard_frameEnded_shrunk s f).trans (taker_shrunk hkind f t _))

/-! ## All commands but TICK and PASS_RECEIVED -/

/-- Another writing of the state. -/
theorem Shrunk.of_frame {s t u : State} (h : t = u) (hu : Shrunk s u) : Shrunk s t := h ▸ hu

theorem restartBeacon_shrunk (s : State) : Shrunk s (restartBeacon s) := by
  unfold restartBeacon
  split
  · exact .of_eq rfl rfl rfl rfl rfl rfl
  · exact .refl s

theorem effect_shrunk {c : Instr} (htick : c ≠ .tick) (hpass : ∀ bits phase, c ≠ .passReceived bits phase) (s : State) :
    Shrunk s (effect c s) := by
  cases c with
  | tick => exact absurd rfl htick
  | passReceived bits phase => exact absurd rfl (hpass bits phase)
  | bindReceived bits phase => exact received_shrunk (kind := .bind) (by decide) bits phase s
  | joinReceived bits phase => exact received_shrunk (kind := .join) (by decide) bits phase s
  | heatReceived bits phase => exact received_shrunk (kind := .heat) (by decide) bits phase s
  | beaconReceived bits phase => exact received_shrunk (kind := .beacon) (by decide) bits phase s
  | cfgdReceived bits phase => exact received_shrunk (kind := .cfgd) (by decide) bits phase s
  | cfgrReceived bits phase => exact received_shrunk (kind := .cfgr) (by decide) bits phase s
  | cfgwReceived bits phase => exact received_shrunk (kind := .cfgw) (by decide) bits phase s
  | cfgxReceived bits phase => exact received_shrunk (kind := .cfgx) (by decide) bits phase s
  | irEdge l x y =>
    have hedge : Shrunk s (acceptEdge s l y) :=
      Shrunk.trans (t := s.setGate l ((s.gates.get l).accept s.now y)) (.of_eq rfl rfl rfl rfl rfl rfl) (reportChange_shrunk _ l _)
    show Shrunk s (irEdge l x y s)
    unfold irEdge
    simp only
    split
    · split <;> split
      · exact hedge
      · exact .refl s
      · exact hedge
      · exact .of_eq rfl rfl rfl rfl rfl rfl
    · exact .refl s
  | passageClose l =>
    show Shrunk s (passageClose l s)
    unfold passageClose
    simp only
    split
    · split
      · split
        · exact .of_eq rfl rfl rfl rfl rfl rfl
        · exact Shrunk.trans (t := s.setGate l (s.gates.get l).idled) (.of_eq rfl rfl rfl rfl rfl rfl) (handOver_shrunk _ _)
      · exact .refl s
    all_goals exact .refl s
  | stallDeclaration l =>
    show Shrunk s (stallDeclaration l s)
    unfold stallDeclaration
    simp only
    split
    · next p _ =>
      split
      · exact Shrunk.trans (t := s.setGate l ((s.gates.get l).stalled p)) (.of_eq rfl rfl rfl rfl rfl rfl)
          ((handOver_shrunk _ _).trans (reportChange_shrunk _ l none))
      · exact .refl s
    all_goals exact .refl s
  | stallEnd l =>
    show Shrunk s (stallEnd l s)
    unfold stallEnd
    simp only
    split
    · refine Shrunk.trans (t := occupancyStallEnd (s.setGate l (s.gates.get l).idled.stopNotice) l) ?_ (stallEndReported_shrunk _ l)
      exact .of_queues (allowed := FrameBody.plain) (.of_line rfl rfl rfl) (Nat.le_refl _) (Nat.le_of_eq (List.length_map ..))
        (List.Sublist.refl _) (List.Sublist.refl _)
    · exact .refl s
  | noticeComplete l =>
    obtain ⟨_, h⟩ := noticeComplete_frame l s
    exact .of_frame h (.of_eq rfl rfl rfl rfl rfl rfl)
  | blankingEnd l =>
    obtain ⟨_, h⟩ := blankingEnd_frame l s
    exact .of_frame h (.of_eq rfl rfl rfl rfl rfl rfl)
  | handsetFrame levels span =>
    show Shrunk s (handsetFrame levels span s)
    unfold handsetFrame
    split
    · split
      · unfold runCloses
        split
        · exact acceptFrame_shrunk s _
        · exact .refl s
      · exact .refl s
    · exact .refl s
  | handsetStaleRemoval a =>
    show Shrunk s (handsetStaleRemoval a s)
    unfold handsetStaleRemoval
    split
    · split
      · exact removeHandset_shrunk s _
      · exact .refl s
    · exact .refl s
  | requestExpiry a =>
    show Shrunk s (requestExpiry a s)
    unfold requestExpiry
    split
    · split
      · exact updateHandset_shrunk s _ _
      · exact .refl s
    · exact .refl s
  | gestureLapse a =>
    show Shrunk s (gestureLapse a s)
    unfold gestureLapse
    split
    · split
      · exact (updateHandset_shrunk s a _).trans (judgeLocal_shrunk _)
      · exact .refl s
    · exact .refl s
  | noticeRunRepeat l =>
    obtain ⟨_, _, h⟩ := noticeRunRepeat_frame l s
    exact .of_frame h (.of_eq rfl rfl rfl rfl rfl rfl)
  | saveComplete =>
    obtain ⟨_, _, _, _, h⟩ := saveComplete_frame s
    exact .of_frame h (.of_eq rfl rfl rfl rfl rfl rfl)
  | occupancyExpiry i =>
    show Shrunk s (occupancyExpiry i s)
    unfold occupancyExpiry
    split
    · split
      · exact .of_queues (allowed := FrameBody.plain) (.of_line rfl rfl rfl) (Nat.le_refl _)
          (List.eraseIdx_sublist _ _).length_le (List.Sublist.refl _) (List.Sublist.refl _)
      · exact .refl s
    · exact .refl s
  | laneHoldEnd l =>
    obtain ⟨_, h⟩ := laneHoldEnd_frame l s
    exact .of_frame h (.of_eq rfl rfl rfl rfl rfl rfl)
  | approachExpiry i =>
    show Shrunk s (approachExpiry i s)
    unfold approachExpiry
    split
    · split
      · exact .of_queues (allowed := FrameBody.plain) (.of_line rfl rfl rfl) (Nat.le_refl _) (Nat.le_refl _)
          (List.eraseIdx_sublist _ _) (List.Sublist.refl _)
      · exact .refl s
    · exact .refl s
  | neighbourSilence side => exact .refl s
  | grantLate l =>
    show Shrunk s (grantLate l s)
    unfold grantLate
    split
    · split
      · exact withdraw_shrunk (by decide) s l
      · exact .refl s
    · exact .refl s
  | claimExpiry i =>
    show Shrunk s (claimExpiry i s)
    unfold claimExpiry
    split
    · split
      · exact .of_queues (allowed := FrameBody.plain) (.of_line rfl rfl rfl) (Nat.le_refl _) (Nat.le_refl _)
          (List.Sublist.refl _) (List.eraseIdx_sublist _ _)
      · exact .refl s
    · exact .refl s
  | coilPulseEnd present strap =>
    show Shrunk s (coilPulseEnd present strap s)
    unfold coilPulseEnd
    split
    · split
      · exact finishPulse_shrunk s _ _ _
      · exact .refl s
    all_goals exact .refl s
  | bladeThrow l =>
    obtain ⟨_, h⟩ := bladeThrow_frame l s
    exact .of_frame h (.of_eq rfl rfl rfl rfl rfl rfl)
  | bladeRelease l =>
    show Shrunk s (bladeRelease l s)
    unfold bladeRelease
    simp only
    split
    · split
      · exact .of_queues (allowed := FrameBody.plain) (.of_line rfl rfl rfl) (Nat.le_refl _) (Nat.le_of_eq (List.length_map ..))
          (List.Sublist.refl _) (List.Sublist.refl _)
      · exact .refl s
    · exact .refl s
  | coolingEnd l =>
    obtain ⟨_, h⟩ := coolingEnd_frame l s
    exact .of_frame h (.of_eq rfl rfl rfl rfl rfl rfl)
  | openCoil l x y =>
    show Shrunk s (openCoil l x y s)
    unfold openCoil
    simp only
    split
    · split
      · exact .of_queues (allowed := FrameBody.plain) (.of_line rfl rfl rfl) (Nat.le_refl _) (Nat.le_of_eq (List.length_map ..))
          (List.Sublist.refl _) (List.Sublist.refl _)
      · exact .of_eq rfl rfl rfl rfl rfl rfl
    · exact .refl s
  | attemptStart phase =>
    obtain ⟨_, _, h⟩ := attemptStart_frame phase s
    exact .of_frame h (.of_eq rfl rfl rfl rfl rfl rfl)
  | arbitrationLoss i =>
    obtain ⟨_, h⟩ := arbitrationLoss_frame i s
    exact .of_frame h (.of_eq rfl rfl rfl rfl rfl rfl)
  | bitFault i =>
    obtain ⟨_, h⟩ := bitFault_frame i s
    exact .of_frame h (.of_eq rfl rfl rfl rfl rfl rfl)
  | attemptComplete =>
    show Shrunk s (attemptComplete s)
    unfold attemptComplete
    split
    · next a _ =>
      split
      · refine (frameEnded_shrunk s).trans ((removeFrame_shrunk _ a.frame.id).trans ?_)
        have hreported : ∀ u, Shrunk u (reportSent u a.frame) := fun u => by
          unfold reportSent
          split
          · next l _ =>
            obtain ⟨_, _, h⟩ := frameSent_frame u l a.frame.id
            rw [h]; exact .of_eq rfl rfl rfl rfl rfl rfl
          all_goals exact .refl u
        exact (hreported _).trans (restartBeacon_shrunk _)
      · exact .refl s
    all_goals exact .refl s
  | frameDeadline i =>
    show Shrunk s (frameDeadline i s)
    unfold frameDeadline
    split
    · split
      · unfold removeLate
        split
        · split
          · unfold takenRemoved
            split
            · split
              · exact withdraw_shrunk (by decide) s _
              · exact removeFrame_shrunk s _
            · exact removeFrame_shrunk s _
          · exact removeFrame_shrunk s _
        all_goals exact removeFrame_shrunk s _
      · exact .refl s
    · exact .refl s
  | beaconTimer =>
    show Shrunk s (beaconTimer s)
    unfold beaconTimer
    split
    · split
      · have hold : Shrunk s (removeOldBeacon s) := by
          unfold removeOldBeacon
          split
          · exact removeFrame_shrunk s _
          · exact .refl s
        have hqueued : Shrunk s (queueBeacon (removeOldBeacon s)) :=
          hold.trans (.of_queues (queueBeacon_queues _) (Nat.le_refl _) (Nat.le_refl _) (List.Sublist.refl _) (List.Sublist.refl _))
        exact hqueued.trans (restartBeacon_shrunk _)
      · exact .refl s
    · exact .refl s
  | frameDiscarded bits =>
    obtain ⟨_, _, h⟩ := frameDiscarded_frame bits s
    exact .of_frame h (.of_eq rfl rfl rfl rfl rfl rfl)
  | configWriteComplete =>
    obtain ⟨_, _, _, _, h⟩ := configWriteComplete_frame s
    exact .of_frame h (.of_eq rfl rfl rfl rfl rfl rfl)
  | powerOn held =>
    show Shrunk s (powerOn held s)
    unfold powerOn
    split
    · exact enterLoad_shrunk _ _
    · exact .refl s
  | loadReadComplete strap =>
    show Shrunk s (loadReadComplete strap s)
    unfold loadReadComplete
    split
    · split
      · exact finishRead_shrunk s _
      · exact .refl s
    all_goals exact .refl s
  | syncEnd =>
    obtain ⟨_, h⟩ := syncEnd_frame s
    exact .of_frame h (.of_eq rfl rfl rfl rfl rfl rfl)
  | trackPowerAbsent high => exact trackPowerAbsent_shrunk s high
  | trackPowerReturn =>
    obtain ⟨_, _, h⟩ := trackPowerReturn_frame s
    exact .of_frame h (.of_eq rfl rfl rfl rfl rfl rfl)
  | debounceComplete =>
    show Shrunk s (debounceComplete s)
    unfold debounceComplete
    split
    · split
      · exact enterSync_shrunk s
      · exact .refl s
    · exact .refl s
  | retentionLow =>
    show Shrunk s (retentionLow s)
    unfold retentionLow
    split
    · exact goOff_shrunk _ _
    · exact .refl s
  | resetAssert =>
    show Shrunk s (resetAssert s)
    unfold resetAssert
    split
    · exact .refl s
    · exact enterLoad_shrunk _ _
  | resetRelease =>
    obtain ⟨_, _, _, h⟩ := resetRelease_frame s
    exact .of_frame h (.of_eq rfl rfl rfl rfl rfl rfl)
  | heatPress => exact heatPress_shrunk s
  | levelSettled l x y =>
    obtain ⟨_, h⟩ := levelSettled_frame l x y s
    exact .of_frame h (.of_eq rfl rfl rfl rfl rfl rfl)
  | lineReady bits =>
    obtain ⟨_, _, h⟩ := lineReady_frame bits s
    exact .of_frame h (.of_eq rfl rfl rfl rfl rfl rfl)
  | coilPulseStart =>
    obtain ⟨_, _, h⟩ := coilPulseStart_frame s
    exact .of_frame h (.of_eq rfl rfl rfl rfl rfl rfl)
  | heatInputReleased =>
    obtain ⟨_, h⟩ := heatInputReleased_frame s
    exact .of_frame h (.of_eq rfl rfl rfl rfl rfl rfl)
  | retentionEnds =>
    show Shrunk s (retentionEnds s)
    unfold retentionEnds
    split
    · exact .refl s
    · exact goOff_shrunk _ _

/-! ## What shrinks stays within its bounds and in order -/

theorem collectionsKept_of_shrunk {s t : State} (hs : collectionsKept s) (h : Shrunk s t) : collectionsKept t := by
  obtain ⟨hhandsets, hlist, happroach, hclaims, hqueue, honeRecord, honeClaim⟩ := hs
  exact ⟨h.handsets hhandsets, h.list hlist, h.approach.length_le.trans happroach, h.claims.length_le.trans hclaims, h.queue hqueue,
    fun c hc => ((h.approach.filter _).length_le).trans (honeRecord c hc),
    fun c hc => ((h.claims.filter _).length_le).trans (honeClaim c hc)⟩

theorem listsOrdered_of_shrunk {s t : State} (hs : listsOrdered s) (h : Shrunk s t) : listsOrdered t := by
  obtain ⟨happroach, hclaims⟩ := hs
  rcases h.now with hnow | ⟨ha, hc⟩
  · unfold listsOrdered
    rw [hnow]
    exact ⟨happroach.sublist h.approach, hclaims.sublist h.claims⟩
  · unfold listsOrdered
    rw [ha, hc]
    exact ⟨.nil, .nil⟩

/-! ## A record and a claim entered (R85, R86, R128, R129) -/

/-- Entering an element that replaces the one of its identified code leaves one of each code. -/
theorem oneOfCode_entered {α : Type} {code : α → CarCode} {p : α → Bool} {x : α} {xs ys : List α}
    (hxs : ys.Sublist (xs.filter (fun y => !(decide (code x ≠ 0) && decide (code y = code x)))))
    (hone : ∀ c : CarCode, c ≠ 0 → (xs.filter (fun y => decide (code y = c))).length ≤ 1) (c : CarCode) (hc : c ≠ 0) :
    ((enterInOrder p x ys).filter (fun y => decide (code y = c))).length ≤ 1 := by
  have hsub : ys.Sublist xs := hxs.trans List.filter_sublist
  rw [((enterInOrder_perm p x ys).filter _).length_eq]
  by_cases hx : code x = c
  · have hnone : ys.filter (fun y => decide (code y = c)) = [] := by
      rw [List.filter_eq_nil_iff]
      intro y hy hyc
      have hkept := (List.mem_filter.1 (hxs.subset hy)).2
      rw [decide_eq_true_eq] at hyc
      rw [hx, hyc] at hkept
      exact hc (by simpa using hkept)
    simp [hx, hnone]
  · rw [List.filter_cons_of_neg (by simpa using hx)]
    exact ((hsub.filter _).length_le).trans (hone c hc)

theorem makeApproachRoom_spec (s : State) : (makeApproachRoom s).occ.approach.Sublist s.occ.approach ∧
    (s.occ.approach.length ≤ Config.approachCap → (makeApproachRoom s).occ.approach.length < Config.approachCap) := by
  unfold makeApproachRoom
  split
  · next hlt => exact ⟨List.Sublist.refl _, fun _ => hlt⟩
  · next hfull =>
    have hne : s.occ.approach ≠ [] := by
      rintro e
      rw [e] at hfull
      exact hfull (by decide)
    have hlt := earliest_lt (fun a b : ApproachRecord => Time.before a.window.stop b.window.stop) _ hne
    simp only [List.getElem?_eq_getElem hlt]
    obtain ⟨_, hh⟩ := holdRequest_frame (s.setApproach (s.occ.approach.eraseIdx (earliest (fun a b : ApproachRecord =>
      Time.before a.window.stop b.window.stop) s.occ.approach))) s.occ.approach[earliest (fun a b : ApproachRecord =>
      Time.before a.window.stop b.window.stop) s.occ.approach].lane s.occ.approach[earliest (fun a b : ApproachRecord =>
      Time.before a.window.stop b.window.stop) s.occ.approach].window.stop
    rw [hh]
    refine ⟨List.eraseIdx_sublist _ _, fun hs => ?_⟩
    show (List.eraseIdx _ _).length < _
    rw [List.length_eraseIdx_of_lt hlt]
    omega

theorem makeClaimRoom_spec (s : State) : (makeClaimRoom s).grants.claims.Sublist s.grants.claims ∧
    (s.grants.claims.length ≤ Config.claimCap → (makeClaimRoom s).grants.claims.length < Config.claimCap) := by
  unfold makeClaimRoom
  split
  · next hlt => exact ⟨List.Sublist.refl _, fun _ => hlt⟩
  · next hfull =>
    have hne : s.grants.claims ≠ [] := by
      rintro e
      rw [e] at hfull
      exact hfull (by decide)
    have hlt := earliest_lt (fun a b : Claim => Time.before a.window.stop b.window.stop) _ hne
    simp only [List.getElem?_eq_getElem hlt]
    obtain ⟨_, hh⟩ := holdRequest_frame (s.setClaims (s.grants.claims.eraseIdx (earliest (fun a b : Claim =>
      Time.before a.window.stop b.window.stop) s.grants.claims))) s.grants.claims[earliest (fun a b : Claim =>
      Time.before a.window.stop b.window.stop) s.grants.claims].lane s.grants.claims[earliest (fun a b : Claim =>
      Time.before a.window.stop b.window.stop) s.grants.claims].window.stop
    rw [hh]
    refine ⟨List.eraseIdx_sublist _ _, fun hs => ?_⟩
    show (List.eraseIdx _ _).length < _
    rw [List.length_eraseIdx_of_lt hlt]
    omega

/-- R86: the approach list after a record is entered: a part of the records of other cars with the one in its place. -/
theorem enterApproach_spec (s : State) (r : ApproachRecord) : ∃ rs, (enterApproach s r).occ.approach = enterApproachRecord r rs ∧
    rs.Sublist (withoutCode r.code s.occ.approach) ∧
    (s.occ.approach.length ≤ Config.approachCap → rs.length < Config.approachCap) := by
  obtain ⟨hsub, hlt⟩ := makeApproachRoom_spec (s.setApproach (withoutCode r.code s.occ.approach))
  exact ⟨_, rfl, hsub, fun hs => hlt ((List.length_filter_le _ _).trans hs)⟩

theorem enterClaim_spec (s : State) (c : Claim) : ∃ cs, (enterClaim s c).grants.claims = enterClaimIn c cs ∧
    cs.Sublist (claimsWithout c.code s.grants.claims) ∧
    (s.grants.claims.length ≤ Config.claimCap → cs.length < Config.claimCap) := by
  obtain ⟨hsub, hlt⟩ := makeClaimRoom_spec (s.setClaims (claimsWithout c.code s.grants.claims))
  exact ⟨_, rfl, hsub, fun hs => hlt ((List.length_filter_le _ _).trans hs)⟩

theorem collectionsKept_enterApproach {s : State} (hs : collectionsKept s) (r : ApproachRecord) : collectionsKept (enterApproach s r) := by
  obtain ⟨rs, he, hsub, hlt⟩ := enterApproach_spec s r
  obtain ⟨hhandsets, hlist, happroach, hclaims, hqueue, honeRecord, honeClaim⟩ := hs
  have hlength : (enterApproach s r).occ.approach.length ≤ Config.approachCap := by
    rw [he, enterApproachRecord, enterInOrder_length]
    exact hlt happroach
  have hone : ∀ c : CarCode, c ≠ 0 → ((enterApproach s r).occ.approach.filter (fun x => decide (x.code = c))).length ≤ 1 := by
    rw [he]
    exact oneOfCode_entered (code := ApproachRecord.code) hsub honeRecord
  obtain ⟨_, _, h⟩ := enterApproach_frame s r
  rw [h] at hlength hone ⊢
  exact ⟨hhandsets, hlist, hlength, hclaims, hqueue, hone, honeClaim⟩

theorem collectionsKept_enterClaim {s : State} (hs : collectionsKept s) (c : Claim) : collectionsKept (enterClaim s c) := by
  obtain ⟨cs, he, hsub, hlt⟩ := enterClaim_spec s c
  obtain ⟨hhandsets, hlist, happroach, hclaims, hqueue, honeRecord, honeClaim⟩ := hs
  have hlength : (enterClaim s c).grants.claims.length ≤ Config.claimCap := by
    rw [he, enterClaimIn, enterInOrder_length]
    exact hlt hclaims
  have hone : ∀ x : CarCode, x ≠ 0 → ((enterClaim s c).grants.claims.filter (fun y => decide (y.code = x))).length ≤ 1 := by
    rw [he]
    exact oneOfCode_entered (code := Claim.code) hsub honeClaim
  obtain ⟨_, _, h⟩ := enterClaim_frame s c
  rw [h] at hlength hone ⊢
  exact ⟨hhandsets, hlist, happroach, hlength, hqueue, honeRecord, hone⟩

/-- An element of a time near the present, entered in order of those times. -/
theorem ordered_entered {α : Type} {now : Time} {time : α → Time} {x : α} {xs : List α}
    (hxs : xs.Pairwise (fun a b => Time.diff now (time a) ≤ Time.diff now (time b)))
    (hnear : ∀ y ∈ xs, near now (time y)) (hx : -1073741824 ≤ Time.diff now (time x) ∧ Time.diff now (time x) ≤ 1073741824) :
    (enterInOrder (fun y => Time.before (time x) (time y)) x xs).Pairwise
      (fun a b => Time.diff now (time a) ≤ Time.diff now (time b)) := by
  have hbefore : ∀ y ∈ xs, Time.before (time x) (time y) = decide (Time.diff now (time x) < Time.diff now (time y)) := by
    intro y hy
    obtain ⟨hlow, hhigh⟩ := hnear y hy
    have hswap := Time.diff_swap now (time x) (by omega)
    have htrans := Time.diff_trans (time x) now (time y) (by omega) (by omega)
    unfold Time.before
    rw [htrans, hswap]
    exact decide_eq_decide.2 (by omega)
  refine pairwise_enterInOrder hxs (fun y hy hp => ?_) (fun y hy hp => ?_) (fun y hy z hz hyz hp => ?_)
  · rw [hbefore y hy, decide_eq_false_iff_not] at hp
    omega
  · rw [hbefore y hy, decide_eq_true_eq] at hp
    omega
  · rw [hbefore y hy, decide_eq_true_eq] at hp
    rw [hbefore z hz, decide_eq_true_eq]
    omega

/-! ## A received PASS -/

/-- A taken PASS: a record is entered, then a claim, each followed by what shrinks the collections at one time. -/
theorem takePass_keeps {P Q : State → Prop} (hP : ∀ u v, P u → Shrunk u v → v.now = u.now → P v)
    (hQ : ∀ u v, Q u → Shrunk u v → Q v) (hPQ : ∀ u, P u → Q u) {s : State} (hs : P s) (f : GoodFrame) (t : Time)
    (happroach : ∀ o, P (enterApproach s (approachRecord s.working (decodePass (payloadWord 88 f.payload)) o t)))
    (hclaim : ∀ u, P u → Q (enterClaim u (claimOf f.originator (decodePass (payloadWord 88 f.payload)) t))) : Q (takePass f t s) := by
  have hfirst : ∀ o, P (passToApproach f (decodePass (payloadWord 88 f.payload)) o t s) := fun o => by
    unfold passToApproach
    split
    · unfold approachNotice
      simp only
      split
      · exact hP _ _ (happroach o) (recheck_shrunk _ _) (recheck_queues _ _).now
      · exact hs
    · exact hs
  have hsecond : ∀ o u, P u → Q (passToClaims f (decodePass (payloadWord 88 f.payload)) o t u) := fun o u hu => by
    have hentered : Q (recheck (enterClaim u (claimOf f.originator (decodePass (payloadWord 88 f.payload)) t)) none) :=
      hQ _ _ (hclaim u hu) (recheck_shrunk _ _)
    have hremoved : Q (u.setClaims (claimsWithout (decodePass (payloadWord 88 f.payload)).code u.grants.claims)) :=
      hQ _ _ (hPQ u hu) (.of_queues (allowed := FrameBody.plain) (.of_line rfl rfl rfl) (Nat.le_refl _) (Nat.le_refl _)
        (List.Sublist.refl _) List.filter_sublist)
    unfold passToClaims
    split
    · unfold claimNotice
      split
      iterate 3
        split
        · exact hentered
        · exact hPQ u hu
      iterate 3 exact hremoved
      all_goals exact hPQ u hu
    · exact hPQ u hu
  unfold takePass
  simp only
  split
  · next o _ =>
    refine hQ _ _ (hsecond o _ (hfirst o)) ?_
    unfold passToTables
    split
    · refine Shrunk.trans (t := orderReceived _ (decodePass (payloadWord 88 f.payload)) o) ?_ (passConsumes_shrunk _ _)
      obtain ⟨_, h⟩ := orderReceived_frame (passToClaims f (decodePass (payloadWord 88 f.payload)) o t
        (passToApproach f (decodePass (payloadWord 88 f.payload)) o t s)) (decodePass (payloadWord 88 f.payload)) o
      rw [h]; exact .of_eq rfl rfl rfl rfl rfl rfl
    · exact .refl _
  · exact hPQ s hs

/-- A time that lies a bounded number of ticks from one near the present. -/
theorem diff_bounded {now t : Time} {k : Int} (ht : near now t) (hk : -536870912 ≤ k ∧ k ≤ 536870912) :
    -1073741824 ≤ Time.diff now (Time.shift t k) ∧ Time.diff now (Time.shift t k) ≤ 1073741824 := by
  obtain ⟨hlow, hhigh⟩ := ht
  have hshift : Time.diff t (Time.shift t k) = k := by
    have h := Time.diff_shift t 0 k (by omega) (by omega)
    rw [Time.shift_zero] at h
    omega
  have h := Time.diff_trans now t (Time.shift t k) (by omega) (by omega)
  omega

theorem approachRecord_arrival (g : Working) (p : PassNotice) (o : Outcome) (t : Time) :
    ∃ k, (approachRecord g p o t).arrival = Time.shift t k ∧ -32767 ≤ k ∧ k ≤ 32767 := by
  have htravel := (travel_mono (x := g.gu) (Pace.received p.pace).ticks (Nat.le_refl _)).2
  refine ⟨-(min Config.greatestTravel p.age : Nat) + (travel g.gu (Pace.received p.pace).ticks : Nat), ?_, ?_, ?_⟩
  · show Time.plus (Time.minus t _) _ = _
    rw [Time.plus_eq_shift, Time.minus_eq_shift, Time.shift_shift]
  · have : min Config.greatestTravel p.age ≤ 32767 := Nat.min_le_left _ _
    omega
  · omega

theorem claimOf_start (a : NodeAddr) (x : BitVec 88) (t : Time) :
    ∃ k, (claimOf a (decodePass x) t).window.start = Time.shift t k ∧ -32767 ≤ k ∧ k ≤ 32767 := by
  have hstart : (decodePass x).startOffset ≤ 32767 := Nat.lt_succ_iff.1 (x.extractLsb' 16 15).isLt
  refine ⟨-(min Config.greatestTravel (decodePass x).age : Nat) + ((decodePass x).startOffset : Nat), ?_, ?_, ?_⟩
  · show Time.plus (Time.minus t _) _ = _
    rw [Time.plus_eq_shift, Time.minus_eq_shift, Time.shift_shift]
  · have : min Config.greatestTravel (decodePass x).age ≤ 32767 := Nat.min_le_left _ _
    omega
  · omega

/-- R4, R151: the stamp of a PASS in reception lies near the present. -/
theorem stampOf_near {s : State} (hs : timesNear s) (phase : BitVec 3) : near s.now (stampOf s phase .pass) := by
  obtain ⟨_, _, hsend⟩ := hs
  have hnow : near s.now (payloadStartOf s.now phase .pass) := by
    show near s.now (Time.minus s.now _)
    rw [Time.minus_eq_shift]
    have hphase := phase.isLt
    have hback : (8 + 9 * FrameKind.length .pass + 7 - phase.toNat) / 8 ≤ 14 := by
      show (8 + 9 * 11 + 7 - phase.toNat) / 8 ≤ 14
      omega
    have h := Time.diff_shift s.now 0 (-(((8 + 9 * FrameKind.length .pass + 7 - phase.toNat) / 8 : Nat) : Int)) (by omega) (by omega)
    rw [Time.shift_zero] at h
    unfold near
    omega
  unfold stampOf
  split
  · next r hr => exact hsend r (.inl hr)
  · next r hr => exact hsend r (.inr hr)
  all_goals exact hnow

/-- What the claim table is entered from: the lists in order at a time, and its claims near that time. -/
def readyForClaim (now : Time) (s : State) : Prop :=
  s.now = now ∧ listsOrdered s ∧ ∀ c ∈ s.grants.claims, near now c.window.start

theorem listsOrdered_takePass {s : State} (hs : listsOrdered s) (hnear : timesNear s) {t : Time} (ht : near s.now t) (f : GoodFrame) :
    listsOrdered (takePass f t s) := by
  obtain ⟨hrecords, hclaims, _⟩ := hnear
  refine takePass_keeps (P := readyForClaim s.now) (Q := listsOrdered) (fun u v hu h hnow => ?_) (fun u v => listsOrdered_of_shrunk)
    (fun u hu => hu.2.1) ⟨rfl, hs, hclaims⟩ f t (fun o => ?_) (fun u hu => ?_)
  · obtain ⟨htime, hordered, hstarts⟩ := hu
    exact ⟨hnow.trans htime, listsOrdered_of_shrunk hordered h, fun c hc => hstarts c (h.claims.subset hc)⟩
  · generalize decodePass (payloadWord 88 f.payload) = p
    obtain ⟨k, hk, hlow, hhigh⟩ := approachRecord_arrival s.working p o t
    obtain ⟨rs, he, hsub, _⟩ := enterApproach_spec s (approachRecord s.working p o t)
    have hsub' : rs.Sublist s.occ.approach := hsub.trans List.filter_sublist
    have happroach : (enterApproach s (approachRecord s.working p o t)).occ.approach.Pairwise
        (fun a b => Time.diff s.now a.arrival ≤ Time.diff s.now b.arrival) := by
      rw [he]
      refine ordered_entered (hs.1.sublist hsub') (fun y hy => hrecords y (hsub'.subset hy)) ?_
      rw [hk]
      exact diff_bounded ht ⟨by omega, by omega⟩
    obtain ⟨_, _, h⟩ := enterApproach_frame s (approachRecord s.working p o t)
    rw [h] at happroach ⊢
    exact ⟨rfl, ⟨happroach, hs.2⟩, hclaims⟩
  · obtain ⟨htime, ⟨happroach, hordered⟩, hstarts⟩ := hu
    obtain ⟨k, hk, hlow, hhigh⟩ := claimOf_start f.originator (payloadWord 88 f.payload) t
    obtain ⟨cs, he, hsub, _⟩ := enterClaim_spec u (claimOf f.originator (decodePass (payloadWord 88 f.payload)) t)
    have hsub' : cs.Sublist u.grants.claims := hsub.trans List.filter_sublist
    have hentered : (enterClaim u (claimOf f.originator (decodePass (payloadWord 88 f.payload)) t)).grants.claims.Pairwise
        (fun a b => Time.diff u.now a.window.start ≤ Time.diff u.now b.window.start) := by
      rw [he]
      refine ordered_entered (time := fun c : Claim => c.window.start) (hordered.sublist hsub')
        (fun y hy => by rw [htime]; exact hstarts y (hsub'.subset hy)) ?_
      rw [hk, htime]
      exact diff_bounded ht ⟨by omega, by omega⟩
    obtain ⟨_, _, h⟩ := enterClaim_frame u (claimOf f.originator (decodePass (payloadWord 88 f.payload)) t)
    rw [h] at hentered ⊢
    exact ⟨happroach, hentered⟩

/-! ## The tick -/

/-- A tick brings a time near the present one nearer. -/
theorem diff_tick {now t : Time} (h : near now t) : Time.diff (Time.plus now 1) t = Time.diff now t - 1 := by
  have hstep := Time.diff_shift now 1 0 (by decide) (by decide)
  rw [Time.shift_zero] at hstep
  obtain ⟨hlow, hhigh⟩ := h
  rw [Time.plus_eq_shift, Time.diff_trans _ now _ (by push_cast; omega) (by push_cast; omega)]
  push_cast
  omega

theorem listsOrdered_tick {s : State} (hs : listsOrdered s) (hnear : timesNear s) : listsOrdered (tick s) := by
  obtain ⟨happroach, hclaims⟩ := hs
  obtain ⟨hrecords, hstarts, _⟩ := hnear
  unfold tick
  split
  · exact ⟨happroach, hclaims⟩
  · refine ⟨happroach.imp_of_mem fun {a b} ha hb hab => ?_, hclaims.imp_of_mem fun {a b} ha hb hab => ?_⟩
    · show Time.diff (Time.plus s.now 1) a.arrival ≤ Time.diff (Time.plus s.now 1) b.arrival
      rw [diff_tick (hrecords a ha), diff_tick (hrecords b hb)]
      omega
    · show Time.diff (Time.plus s.now 1) a.window.start ≤ Time.diff (Time.plus s.now 1) b.window.start
      rw [diff_tick (hstarts a ha), diff_tick (hstarts b hb)]
      omega

theorem collectionsKept_tick {s : State} (hs : collectionsKept s) : collectionsKept (tick s) := by
  obtain ⟨hhandsets, hlist, happroach, hclaims, hqueue, honeRecord, honeClaim⟩ := hs
  unfold tick
  split
  · exact ⟨hhandsets, hlist, happroach, hclaims, hqueue, honeRecord, honeClaim⟩
  · exact ⟨(Nat.le_of_eq (List.length_map ..)).trans hhandsets, (Nat.le_of_eq (List.length_map ..)).trans hlist, happroach, hclaims,
      (Nat.le_of_eq (List.length_map ..)).trans hqueue, honeRecord, honeClaim⟩

/-! ## Every step -/

theorem collectionsKept_effect (c : Instr) {s : State} (hs : collectionsKept s) : collectionsKept (effect c s) := by
  by_cases htick : c = .tick
  · subst htick
    exact collectionsKept_tick hs
  by_cases hpass : ∃ bits phase, c = .passReceived bits phase
  · obtain ⟨bits, phase, rfl⟩ := hpass
    refine received_keeps (kind := .pass) hs
      (fun _ => collectionsKept_of_shrunk hs ((frameEnded_shrunk s).trans (enterFault_shrunk _))) (fun f t _ => ?_)
    have hheard := collectionsKept_of_shrunk hs (heard_frameEnded_shrunk s f)
    exact takePass_keeps (P := collectionsKept) (fun _ _ hu h _ => collectionsKept_of_shrunk hu h)
      (fun _ _ => collectionsKept_of_shrunk) (fun _ h => h) hheard f t (fun o => collectionsKept_enterApproach hheard _)
      (fun u hu => collectionsKept_enterClaim hu _)
  · exact collectionsKept_of_shrunk hs (effect_shrunk htick (fun bits phase h => hpass ⟨bits, phase, h⟩) s)

theorem listsOrdered_effect (c : Instr) {s : State} (hs : listsOrdered s) (hnear : timesNear s) : listsOrdered (effect c s) := by
  by_cases htick : c = .tick
  · subst htick
    exact listsOrdered_tick hs hnear
  by_cases hpass : ∃ bits phase, c = .passReceived bits phase
  · obtain ⟨bits, phase, rfl⟩ := hpass
    show listsOrdered (receiveFrame .pass takePass bits phase s)
    refine receiveFrame_keeps hs
      (fun _ => listsOrdered_of_shrunk hs ((frameEnded_shrunk s).trans (enterFault_shrunk _))) (fun f _ => ?_)
    have hstamp := stampOf_near hnear phase
    have hheard := listsOrdered_of_shrunk hs (heard_frameEnded_shrunk s f)
    obtain ⟨hrecords, hclaims, _⟩ := hnear
    have hafter : timesNear (heard (frameEnded s) f) ∧ (heard (frameEnded s) f).now = s.now := by
      obtain ⟨_, _, h⟩ := heard_frameEnded_frame s f
      rw [h]
      exact ⟨⟨hrecords, hclaims, fun r hr => by rcases hr with hr | hr <;> cases hr⟩, rfl⟩
    exact listsOrdered_takePass hheard hafter.1 (by rw [hafter.2]; exact hstamp) f
  · exact listsOrdered_of_shrunk hs (effect_shrunk htick (fun bits phase h => hpass ⟨bits, phase, h⟩) s)

/-- Settles O6: what enters a list enters it within its capacity, alone of its car and in its place; all else takes away. -/
theorem collectionsInvariantKept : Obligations.CollectionsInvariantKept := by
  refine ⟨step_keeps (fun _ _ h => h) (fun c _ h => collectionsKept_effect c h), fun s t hnear hs h => ?_⟩
  unfold step at h
  split at h
  · next c rest _ =>
    rw [eq_effect_of_exec h]
    exact listsOrdered_effect c (s := { s with pending := rest }) hs hnear
  · injection h with h
    exact h ▸ hs

end Sys2Proof.Machine
end

/-! # Times, windows and the tick (section 01) -/

section
namespace Sys2Proof.Machine

open Sys2Proof.Safety

/-! ## Differences -/

theorem Time.diff_plus {t : Time} {n : Nat} (h : n < 2147483648) : Time.diff t (Time.plus t n) = n := by
  have := Time.diff_shift t 0 n (by omega) (by omega)
  rw [Time.shift_zero] at this
  rw [Time.plus_eq_shift, this, Int.sub_zero]

theorem Time.diff_minus {t : Time} {n : Nat} (h : n < 2147483648) : Time.diff (Time.minus t n) t = n := by
  have := Time.diff_shift t (-n) 0 (by omega) (by omega)
  rw [Time.shift_zero] at this
  rw [Time.minus_eq_shift, this]
  omega

/-- Two times near a third differ as their offsets from it. -/
theorem Time.diff_between {o x y : Time} (hx : -1073741824 < Time.diff o x ∧ Time.diff o x < 1073741824)
    (hy : -1073741824 < Time.diff o y ∧ Time.diff o y < 1073741824) : Time.diff x y = Time.diff o y - Time.diff o x := by
  have h := Time.diff_shift o (Time.diff o x) (Time.diff o y) (by omega) (by omega)
  rwa [Time.shift_diff, Time.shift_diff] at h

theorem Time.atOrBefore_iff (a b : Time) : Time.atOrBefore a b = true ↔ 0 ≤ Time.diff a b := decide_eq_true_iff

theorem Time.before_iff (a b : Time) : Time.before a b = true ↔ 0 < Time.diff a b := decide_eq_true_iff

theorem arrived_iff (now t : Time) : arrived now t = true ↔ 0 ≤ Time.diff t now := decide_eq_true_iff

/-- Settles O11: the comparisons are the sign of the difference, which is the word's difference read as a signed one. -/
theorem timesCompareThroughTheirDifference : Obligations.TimesCompareThroughTheirDifference := by
  intro a b
  have hrange := Time.diff_range a b
  refine ⟨?_, hrange.1, by omega, Time.atOrBefore_iff a b, Time.before_iff a b, fun k => decide_eq_true_iff,
    fun t => Bool.and_eq_true_iff, ?_⟩
  · have hword : (b - a).toNat = (b.toNat + 2 ^ 32 - a.toNat) % 2 ^ 32 := by
      rw [BitVec.toNat_sub]
      have := a.isLt
      congr 1
      omega
    unfold Time.diff
    rw [BitVec.toInt_eq_toNat_cond, hword]
    push_cast
    split <;> split <;> omega
  · rw [arrived_iff, Time.before_iff]
    constructor
    · intro h
      rcases Int.lt_or_eq_of_le h with hlt | heq
      · exact .inr hlt
      · exact .inl (Time.eq_of_diff a b heq.symm)
    · rintro (rfl | h)
      · rw [Time.diff_self]
      · exact Int.le_of_lt h

/-! ## The tick -/

theorem capStamp_age_min {now t : Time} (h : 0 ≤ Time.diff t now) : Time.diff (capStamp now t) now = min (Time.diff t now) 1048576 := by
  unfold capStamp Config.ageCap
  split
  · rw [Time.diff_minus (by decide)]
    omega
  · omega

theorem capStamp_future {now t : Time} (h : Time.diff t now < 0) : capStamp now t = t := by
  unfold capStamp Config.ageCap
  rw [if_neg (by omega)]

theorem tick_of_not_off {s : State} (h : s.node ≠ .off) : tick s =
    { s with
      now := Time.plus s.now 1
      sup := s.sup.cap (Time.plus s.now 1)
      gates := s.gates.map (Gate.tick (Time.plus s.now 1))
      handsets := s.handsets.map (HandsetEntry.cap (Time.plus s.now 1))
      occ := s.occ.cap (Time.plus s.now 1)
      grants := { s.grants with slots := s.grants.slots.map (Option.map (Grant.cap (Time.plus s.now 1))) }
      blades := s.blades.map (Blade.cap (Time.plus s.now 1))
      line := s.line.cap (Time.plus s.now 1) } := if_neg h

/-- R19, R33: the gap timer counts in a passage and a stall outside blanking. -/
theorem Gate.nextGap_eq (g : Gate) :
    g.nextGap = if g.state = .idle ∨ g.blanking.isSome = true then g.gap else min 24 (g.gap + 1) := by
  unfold Gate.nextGap Gate.isIdle
  cases g.state <;> simp <;> rfl

/-- Settles O12: each field of the tick is the model's cap of it, read case by case. -/
theorem tickAdvancesTrackTime : Obligations.TickAdvancesTrackTime := by
  refine ⟨fun now t => ⟨capStamp_age_min, capStamp_future⟩, fun s h => by rw [exec_eq_effect]; exact congrArg _ (if_pos h),
    fun s h => ⟨tick s, rfl, ?_⟩⟩
  rw [tick_of_not_off h]
  refine ⟨?_, ?_, rfl, fun l => by rw [OccupancyBlock.cap, PerLane.get_map]; rfl, rfl, fun l => by rw [PerLane.get_map]; rfl,
    fun l => by rw [PerLane.get_map]; rfl, ?_, fun l => ?_, rfl⟩
  · show (s.now + BitVec.ofNat 32 1).toNat = _
    rw [BitVec.toNat_add]
    rfl
  · show s.sup.cap _ = _
    unfold Supervisor.cap
    cases s.sup.load <;> rfl
  · show s.line.cap _ = _
    unfold LineController.cap
    congr 1
    refine List.map_congr_left fun f _ => ?_
    unfold TxFrame.cap
    cases f.body <;> rfl
  · show (s.gates.map _).get l = _
    rw [PerLane.get_map, Gate.tick, Gate.nextGap_eq]
    rfl

/-! ## Projected times -/

/-- A window whose ends are offsets from one time. -/
theorem Window.ordered_of_shift {t : Time} {a b : Int} (h : a ≤ b) (h' : b - a < 2147483648) :
    Window.ordered ⟨Time.shift t a, Time.shift t b⟩ = true := by
  rw [Window.ordered, Time.atOrBefore_iff, Time.diff_shift t a b (by omega) h']
  omega

/-- R9: a window from a time's travel to a longer travel, widened by a guard on both sides. -/
theorem guarded_ordered (t : Time) {x y : Nat} (p guard : Nat) (h : x ≤ y) (hguard : guard ≤ 255) :
    Window.ordered ⟨Time.minus (Time.plus t (travel x p)) guard, Time.plus (Time.plus t (travel y p)) guard⟩ = true := by
  obtain ⟨hle, hmax⟩ := travel_mono p h
  simp only [Time.plus_eq_shift, Time.minus_eq_shift, Time.shift_shift]
  exact Window.ordered_of_shift (by omega) (by omega)

theorem Pace.clamped_range (p : Nat) : 4 ≤ (Pace.clamped p).ticks ∧ (Pace.clamped p).ticks ≤ 4095 := by
  unfold Pace.clamped Config.leastPace Config.greatestPace
  split
  · exact ⟨by decide, by decide⟩
  · split
    · exact ⟨by decide, by decide⟩
    · exact ⟨by show 4 ≤ p; omega, by show p ≤ 4095; omega⟩

/-- R10: a hold lasts as long as its lead, the travel past the blade and the guard, or as the hold clamp allows. -/
theorem holdWindow_length (g : Working) (t : Time) (p : Nat) (hguard : g.guard ≤ 255) (hleast : 16 ≤ g.lead) (hlead : g.lead ≤ 255) :
    16 ≤ Time.diff (holdWindow g t p).start (holdWindow g t p).stop ∧
      Time.diff (holdWindow g t p).start (holdWindow g t p).stop ≤ 6250 := by
  obtain ⟨hle, hmax⟩ := travel_mono (x := g.ds) (y := g.ds + g.lc) p (by omega)
  unfold holdWindow bladeTime Config.greatestHold
  simp only
  split
  · rw [Time.diff_plus (by decide)]
    decide
  · next hspan =>
    have hlength : Time.diff (Time.minus (Time.plus t (travel g.ds p)) g.lead)
        (Time.plus (Time.plus t (travel (g.ds + g.lc) p)) g.guard) =
        (travel (g.ds + g.lc) p : Int) + g.guard - (travel g.ds p - g.lead) := by
      simp only [Time.plus_eq_shift, Time.minus_eq_shift, Time.shift_shift]
      rw [Time.diff_shift t _ _ (by omega) (by omega)]
      omega
    rw [Time.spanExceeds, decide_eq_true_iff] at hspan
    push_cast at hspan
    omega

/-- Settles O13: each window is a pair of offsets from one time, the later offset the greater. -/
theorem projectedTimesStandInOrder : Obligations.ProjectedTimesStandInOrder := by
  refine ⟨fun x y p => travel_mono p, fun w d => Pace.clamped_range _, fun g t p n hguard hleast hlead => ?_, fun t a b ha hb => ?_⟩
  · exact ⟨guarded_ordered t p g.guard (by omega) hguard, guarded_ordered t p g.guard (by omega) hguard,
      guarded_ordered t p g.guard (by omega) hguard, holdWindow_length g t p hguard hleast hlead⟩
  · unfold claimWindow
    simp only [Time.plus_eq_shift]
    exact Window.ordered_of_shift (by omega) (by omega)

/-! ## Conflict -/

/-- A tick of a window in order near a time lies between its ends in offsets from that time. -/
theorem Window.contains_between {o t : Time} {w : Window} (hstart : -1073741824 < Time.diff o w.start ∧ Time.diff o w.start < 1073741824)
    (hstop : -1073741824 < Time.diff o w.stop ∧ Time.diff o w.stop < 1073741824) (hw : w.ordered = true) (ht : w.contains t = true) :
    Time.diff o w.start ≤ Time.diff o t ∧ Time.diff o t ≤ Time.diff o w.stop := by
  rw [Window.ordered, Time.atOrBefore_iff] at hw
  obtain ⟨hfrom, hto⟩ := Bool.and_eq_true_iff.1 ht
  rw [Time.atOrBefore_iff] at hfrom hto
  have hlength := Time.diff_between hstart hstop
  have hrest := Time.diff_shift w.start (Time.diff w.start t) (Time.diff w.start w.stop)
    (by have := Time.diff_range w.start t; omega) (by have := Time.diff_range w.start w.stop; omega)
  rw [Time.shift_diff, Time.shift_diff] at hrest
  have hoffset := Time.diff_trans o w.start t (by omega) (by omega)
  omega

/-- Settles O14: the later of the two starts is a shared tick, and a shared tick lies after both starts and before both ends. -/
theorem conflictMeansASharedTick : Obligations.ConflictMeansASharedTick := by
  intro o v w hnear hv hw
  have hvstart := hnear v.start (by simp)
  have hvstop := hnear v.stop (by simp)
  have hwstart := hnear w.start (by simp)
  have hwstop := hnear w.stop (by simp)
  simp only [Window.conflicts, Bool.and_eq_true, Time.atOrBefore_iff]
  rw [Time.diff_between hvstart hwstop, Time.diff_between hwstart hvstop]
  constructor
  · rintro ⟨hvw, hwv⟩
    rw [Window.ordered, Time.atOrBefore_iff] at hv hw
    simp only [Window.contains, Bool.and_eq_true, Time.atOrBefore_iff]
    by_cases h : Time.diff o v.start ≤ Time.diff o w.start
    · exact ⟨w.start, ⟨by rw [Time.diff_between hvstart hwstart]; omega, by rw [Time.diff_between hwstart hvstop]; omega⟩,
        by rw [Time.diff_self], hw⟩
    · exact ⟨v.start, ⟨by rw [Time.diff_self], hv⟩, by rw [Time.diff_between hwstart hvstart]; omega,
        by rw [Time.diff_between hvstart hwstop]; omega⟩
  · rintro ⟨t, htv, htw⟩
    obtain ⟨hv1, hv2⟩ := Window.contains_between hvstart hvstop hv htv
    obtain ⟨hw1, hw2⟩ := Window.contains_between hwstart hwstop hw htw
    omega

end Sys2Proof.Machine
end

/-! # The lane gates: samples, edges, stalls and the emitter (section 02) -/

section
namespace Sys2Proof.Machine

open Sys2Proof.Safety

/-! ## The judgement of the local bind condition -/

/-- R54 to R56: the judgement changes nothing, or it judges the local proposal of the one coded stall and the one gesturing
handset. -/
theorem judgeLocal_cases (s : State) : judgeLocal s = s ∨ ∃ l code car e p, s.node.live = true ∧ codedStalls s = [(l, code)] ∧
    s.handsets.filter (fun e => e.gesturing) = [e] ∧ Car.ofCode code = some car ∧
    localProposal s.working.address car (s.bind.entries.get car) e.address e.freshGesture = some p ∧
    judgeLocal s = localBind s l p := by
  unfold judgeLocal
  split
  · next hlive =>
    split
    · next l code e hstalls hgesturing =>
      split
      · next car hcar =>
        split
        · next p hp => exact .inr ⟨l, code, car, e, p, hlive, hstalls, hgesturing, hcar, hp, rfl⟩
        · exact .inl rfl
      · exact .inl rfl
    · exact .inl rfl
  · exact .inl rfl

theorem Lane.mem_all (l : Lane) : l ∈ Lane.all := by cases l <;> decide

theorem mem_codedStalls {s : State} {l : Lane} {c : CarCode} : (l, c) ∈ codedStalls s ↔ (s.gates.get l).codedStall = some c := by
  unfold codedStalls
  rw [List.mem_filterMap]
  constructor
  · rintro ⟨m, _, hm⟩
    obtain ⟨d, hd, he⟩ := Option.map_eq_some_iff.1 hm
    cases he
    exact hd
  · intro h
    exact ⟨l, Lane.mem_all l, by rw [h]; rfl⟩

/-- R54: the lane judged is the one whose stall is coded. -/
theorem eq_of_codedStalls {s : State} {l m : Lane} {c d : CarCode} (h : codedStalls s = [(l, c)])
    (hm : (s.gates.get m).codedStall = some d) : m = l := by
  have := mem_codedStalls.2 hm
  rw [h, List.mem_singleton] at this
  exact congrArg Prod.fst this

theorem Gate.request_state (g : Gate) (now : Time) (n : Notice) : (g.request now n).state = g.state ∧ (g.request now n).level = g.level := by
  unfold Gate.request
  split <;> exact ⟨rfl, rfl⟩

/-- The local rule at a lane leaves the gates and the runs of the other lanes. -/
theorem localBind_other (s : State) {l m : Lane} (h : m ≠ l) (p : Proposal) :
    (localBind s l p).gates.get m = s.gates.get m ∧ (localBind s l p).bind.runs.get m = s.bind.runs.get m := by
  unfold localBind
  split
  · obtain ⟨_, ha⟩ := applyProposal_frame s p
    unfold startRun requestNotice
    rw [ha]
    split
    · exact ⟨by rw [State.setRun_gates, State.setGate_gates, PerLane.get_set, if_neg h]; rfl, by
        rw [State.setRun_bind]
        exact (PerLane.get_set _ _ _ _).trans (if_neg h)⟩
    · exact ⟨rfl, by
        rw [State.setRun_bind]
        exact (PerLane.get_set _ _ _ _).trans (if_neg h)⟩
  · exact ⟨rfl, rfl⟩

theorem localBind_gate_state (s : State) (l m : Lane) (p : Proposal) :
    ((localBind s l p).gates.get m).state = (s.gates.get m).state ∧ ((localBind s l p).gates.get m).level = (s.gates.get m).level := by
  by_cases h : m = l
  · subst h
    unfold localBind
    split
    · obtain ⟨_, ha⟩ := applyProposal_frame s p
      unfold startRun requestNotice
      rw [ha]
      split
      · rw [State.setRun_gates, State.setGate_gates, PerLane.get_set, if_pos rfl]
        exact Gate.request_state _ _ _
      · exact ⟨rfl, rfl⟩
    · exact ⟨rfl, rfl⟩
  · rw [(localBind_other s h p).1]
    exact ⟨rfl, rfl⟩

theorem judgeLocal_gate_state (s : State) (m : Lane) :
    ((judgeLocal s).gates.get m).state = (s.gates.get m).state ∧ ((judgeLocal s).gates.get m).level = (s.gates.get m).level :=
  judgeLocal_keeps (P := fun t => (t.gates.get m).state = (s.gates.get m).state ∧ (t.gates.get m).level = (s.gates.get m).level)
    ⟨rfl, rfl⟩ (fun _ l p => localBind_gate_state s l m p)

/-- R54: the judgement leaves the gates and runs of every lane but the one coded stall. -/
theorem judgeLocal_other {s : State} {m : Lane} (h : ∀ l c, codedStalls s = [(l, c)] → m ≠ l) :
    (judgeLocal s).gates.get m = s.gates.get m ∧ (judgeLocal s).bind.runs.get m = s.bind.runs.get m := by
  rcases judgeLocal_cases s with hs | ⟨l, c, _, _, p, _, hstalls, _, _, _, hs⟩ <;> rw [hs]
  · exact ⟨rfl, rfl⟩
  · exact localBind_other s (h l c hstalls) p

theorem judgeLocal_other_of_coded {s : State} {l m : Lane} {c : CarCode} (hl : (s.gates.get l).codedStall = some c) (h : m ≠ l) :
    (judgeLocal s).gates.get m = s.gates.get m := by
  refine (judgeLocal_other fun k d hk => ?_).1
  rw [← eq_of_codedStalls hk hl]
  exact h

theorem judgeLocal_other_of_uncoded {s : State} {l : Lane} (hl : (s.gates.get l).codedStall = none) :
    (judgeLocal s).gates.get l = s.gates.get l ∧ (judgeLocal s).bind.runs.get l = s.bind.runs.get l := by
  refine judgeLocal_other fun k d hk => ?_
  rintro rfl
  have := mem_codedStalls.1 (hk ▸ List.mem_singleton.2 rfl)
  rw [hl] at this
  cases this

theorem judgeLocal_occ (s : State) : (judgeLocal s).occ = s.occ := by
  obtain ⟨_, _, _, _, _, _, _, h⟩ := judgeLocal_frame s
  rw [h]

/-- R60, R156: with room in the queue the judgement drops no frame. -/
theorem judgeLocal_mem {s : State} {f : TxFrame} (hf : f ∈ s.line.queue) (hroom : s.line.queue.length < Config.queueCap) :
    f ∈ (judgeLocal s).line.queue := by
  refine judgeLocal_keeps (P := fun t => f ∈ t.line.queue) hf fun _ l p => ?_
  unfold localBind
  split
  · obtain ⟨_, ha⟩ := applyProposal_frame s p
    obtain ⟨_, _, hr⟩ := startRun_frame (queueLiveBind (applyProposal s p) p.car) l p.car
    rw [hr, ha]
    show f ∈ queueAfter _ _ _ s.line.queue
    unfold queueAfter makeRoom
    rw [if_pos hroom]
    split
    · exact hf
    · exact (mem_enterInOrder _ _ _ _).2 (.inr hf)
  · exact hf

/-! ## Samples and accepted edges -/

theorem exec_irEdge (l : Lane) (x y : Bool) (s : State) : exec (.irEdge l x y) s = .next (irEdge l x y s) := rfl

/-- R19: two samples that differ from the accepted level, at a working gate that is not blanking. -/
theorem irEdge_of_edge {s : State} {l : Lane} {x : Bool} (hworks : gateWorks s l = true) (hblank : (s.gates.get l).blanking = none)
    (hlevel : (s.gates.get l).level = some (!x)) : irEdge l x x s = acceptEdge s l x := by
  have hedge : isEdge (s.gates.get l) x x = true := by simp [isEdge, hlevel]
  simp [irEdge, hworks, hblank, hedge]

/-- R19: the gate after an edge outside blanking. -/
theorem Gate.accept_of_unblanked {g : Gate} (h : g.blanking = none) (now : Time) (lit : Bool) :
    g.accept now lit = Gate.edge { g with level := some lit, previous := some lit } now lit := by
  unfold Gate.accept
  rw [Gate.unblanked_of_none h, Gate.reblanked_of_none]
  rw [Gate.edge_blanking]
  exact h

theorem reportChange_of_none {s : State} {l : Lane} (h : (s.gates.get l).codedStall = none) (old : Option CarCode) :
    reportChange s l old = s := by
  unfold reportChange
  rw [h]

/-- Settles O15: the branches of the two commands that take samples. -/
theorem levelSettlesAndNoiseIsRejected : Obligations.LevelSettlesAndNoiseIsRejected := by
  refine ⟨fun l x s hworks hlevel => ?_, fun l x s hworks hlevel => ?_, fun l x y z s hworks hblank hlevel hnoise => ?_,
    fun l x y s hblank hdropped => ?_⟩
  · show Host.Outcome.next (levelSettled l x x s) = _
    simp [levelSettled, hworks, hlevel]
  · show Host.Outcome.next (levelSettled l x (!x) s) = _
    simp [levelSettled, hworks, hlevel]
  · have hedge : isEdge (s.gates.get l) x y = false := by
      rcases hnoise with h | rfl
      · simp [isEdge, hlevel, h]
      · simp [isEdge, hlevel]
    rw [exec_irEdge]
    simp [irEdge, hworks, hblank, hedge]
  · have hchange : (s.gates.get l).changesCode s.now y = false := by simp [Gate.changesCode, hdropped]
    rw [exec_irEdge]
    simp [irEdge, hblank, hchange]

/-- R23: a valid frame updates the code and the frames seen; the two edges of the passage stand. -/
theorem Passage.read_spec (p : Passage) (c : CarCode) : (p.read c).first = p.first ∧ (p.read c).last = p.last ∧
    (p.code = .absent → (p.read c).code = .read c ∧ (p.read c).frames = 1) ∧
    (p.code = .read c → (p.read c).code = .read c ∧ (p.read c).frames = min 255 (p.frames + 1)) ∧
    (∀ d, d ≠ c → p.code = .read d → (p.read c).code = .conflicting ∧ (p.read c).frames = 0) ∧
    (p.code = .conflicting → (p.read c).code = .conflicting ∧ (p.read c).frames = 0) := by
  unfold Passage.read
  cases hp : p.code with
  | absent => simp
  | conflicting => simp
  | read d =>
    by_cases h : c = d
    · subst h
      exact ⟨by simp, by simp, nofun, fun _ => by simp, fun d hd he => absurd (by injection he with he; exact he.symm) hd, nofun⟩
    · exact ⟨by simp [h], by simp [h], nofun, fun he => absurd (by injection he with he; exact he.symm) h, fun _ _ _ => by simp [h],
        nofun⟩

/-- R23, R24: an edge in OPEN moves the last edge and reads the frame that it completes. -/
theorem Gate.edge_open {g : Gate} {p : Passage} (h : g.state = .open p) (now : Time) (lit : Bool) :
    ∃ q, g.edge now lit = { g with decoder := (g.decoder.edge lit (Time.diff p.last now)).1, gap := 0, state := .open q } ∧
      (frameCode (g.decoder.edge lit (Time.diff p.last now)).2 = none → q = { p with last := now }) ∧
      ∀ c, frameCode (g.decoder.edge lit (Time.diff p.last now)).2 = some c → q = Passage.read { p with last := now } c := by
  unfold Gate.edge
  simp only [h]
  cases frameCode (g.decoder.edge lit (Time.diff p.last now)).2 with
  | none => exact ⟨_, rfl, fun _ => rfl, nofun⟩
  | some c => exact ⟨_, rfl, nofun, fun _ hc => by cases hc; rfl⟩

/-- R27: an edge in STALL moves the last edge and reads the frame that it completes. -/
theorem Gate.edge_stall {g : Gate} {p : Passage} {sc : Option StallCode} {dec : Option CarCode} (h : g.state = .stall p sc dec)
    (now : Time) (lit : Bool) : ∃ sc' dec', g.edge now lit = { g with
        decoder := (g.decoder.edge lit (Time.diff p.last now)).1, gap := 0, state := .stall { p with last := now } sc' dec' } ∧
      (frameCode (g.decoder.edge lit (Time.diff p.last now)).2 = none → sc' = sc ∧ dec' = dec) ∧
      ∀ c, frameCode (g.decoder.edge lit (Time.diff p.last now)).2 = some c →
        sc' = some (StallCode.read sc c) ∧ dec' = nextDecoded dec (StallCode.read sc c) := by
  unfold Gate.edge
  simp only [h]
  cases frameCode (g.decoder.edge lit (Time.diff p.last now)).2 with
  | none => exact ⟨_, _, rfl, fun _ => ⟨rfl, rfl⟩, nofun⟩
  | some c => exact ⟨_, _, rfl, nofun, fun _ hc => by cases hc; exact ⟨rfl, rfl⟩⟩

/-- Settles O16: a gate in IDLE opens a passage, and one in OPEN reads on; neither names a stall. -/
theorem acceptedEdgesMakeAPassage : Obligations.AcceptedEdgesMakeAPassage := by
  have haccept : ∀ (l : Lane) (x : Bool) (s : State), gateWorks s l = true → (s.gates.get l).blanking = none →
      (s.gates.get l).level = some (!x) →
      (Gate.edge { s.gates.get l with level := some x, previous := some x } s.now x).codedStall = none →
      exec (.irEdge l x x) s =
        .next (s.setGate l (Gate.edge { s.gates.get l with level := some x, previous := some x } s.now x)) := by
    intro l x s hworks hblank hlevel hstall
    rw [exec_irEdge, irEdge_of_edge hworks hblank hlevel, acceptEdge, Gate.accept_of_unblanked hblank, reportChange_of_none]
    rw [State.setGate_gates, PerLane.get_set, if_pos rfl]
    exact hstall
  constructor
  · intro l x s hworks hblank hlevel hidle
    have hedge : Gate.edge { s.gates.get l with level := some x, previous := some x } s.now x =
        Gate.opened { s.gates.get l with level := some x, previous := some x } s.now := by simp [Gate.edge, hidle]
    rw [haccept l x s hworks hblank hlevel (by rw [hedge]; rfl), hedge]
    rfl
  · intro l x s p hworks hblank hlevel hopen
    obtain ⟨q, hedge, hnone, hsome⟩ := Gate.edge_open (g := { s.gates.get l with level := some x, previous := some x }) hopen s.now x
    refine ⟨q, ?_, ?_⟩
    · rw [haccept l x s hworks hblank hlevel (by rw [hedge]; rfl), hedge]
    · cases hcode : frameCode ((s.gates.get l).decoder.edge x (Time.diff p.last s.now)).2 with
      | none =>
        rw [hnone hcode]
        exact ⟨rfl, rfl, fun _ => ⟨rfl, rfl⟩, nofun⟩
      | some c =>
        obtain ⟨hfirst, hlast, hspec⟩ := Passage.read_spec { p with last := s.now } c
        rw [hsome c hcode]
        refine ⟨hfirst, hlast, nofun, ?_⟩
        rintro _ ⟨⟩
        exact hspec

/-! ## The emitter -/

/-- Settles O23: the branches of NOTICE_COMPLETE and BLANKING_END. -/
theorem emitterFinishesItsNotices : Obligations.EmitterFinishesItsNotices := by
  refine ⟨fun l s d hd hends hwait => ?_, fun l s d n hd hends hwait => ?_, fun l s b hsend hblank hends => ?_⟩
  · show Host.Outcome.next (noticeComplete l s) = _
    simp [noticeComplete, hd, hends, Gate.completeNotice, hwait]
  · show Host.Outcome.next (noticeComplete l s) = _
    simp [noticeComplete, hd, hends, Gate.completeNotice, hwait, Gate.startNotice, Config.blankingTail]
  · show Host.Outcome.next (blankingEnd l s) = _
    simp [blankingEnd, hsend, hblank, hasArrived, hends]

/-! ## Stalls -/

/-- R27: the stall code after a valid frame. -/
theorem StallCode.read_spec (sc : Option StallCode) (c : CarCode) :
    (∀ y, sc = some y → y.code = c → StallCode.read sc c = { code := c, frames := min 255 (y.frames + 1) }) ∧
      ((∀ y, sc = some y → y.code ≠ c) → StallCode.read sc c = { code := c, frames := 1 }) := by
  unfold StallCode.read
  cases sc with
  | none => simp
  | some x =>
    constructor
    · rintro _ ⟨⟩ h
      simp [h]
    · intro h
      exact if_neg (h x rfl)

theorem StallCode.read_code (sc : Option StallCode) (c : CarCode) : (StallCode.read sc c).code = c := by
  unfold StallCode.read
  split
  · rfl
  · split
    · next h => exact h
    · rfl

/-- R27: a decoded code is kept or becomes the stall code. -/
theorem nextDecoded_ne_none {old : Option CarCode} {sc : StallCode} (h : nextDecoded old sc ≠ old) :
    nextDecoded old sc = some sc.code := by
  unfold nextDecoded at h ⊢
  split
  · rfl
  · next hne => rw [if_neg hne] at h; exact absurd rfl h

/-- R54, R59, R79: what a report of a code leaves, in the gates and the occupancy list. -/
theorem reportCode_spec {s : State} {l : Lane} {c : CarCode} (hcoded : (s.gates.get l).codedStall = some c) :
    (∀ m, m ≠ l → (reportCode s l c).gates.get m = s.gates.get m) ∧
    ((reportCode s l c).gates.get l).state = (s.gates.get l).state ∧
    ((reportCode s l c).gates.get l).level = (s.gates.get l).level ∧
    (reportCode s l c).occ = (occupancyCode s l c).occ := by
  unfold reportCode codeReported
  split
  · obtain ⟨r, h⟩ := endRunOnCode_frame (occupancyCode s l c) l c
    have hgates : (endRunOnCode (occupancyCode s l c) l c).gates = s.gates := by rw [h]; rfl
    have hstate := judgeLocal_gate_state (endRunOnCode (occupancyCode s l c) l c) l
    rw [hgates] at hstate
    refine ⟨fun m hm => ?_, hstate.1, hstate.2, ?_⟩
    · rw [judgeLocal_other_of_coded (c := c) (by rw [hgates]; exact hcoded) hm, hgates]
    · rw [judgeLocal_occ, h]
  · exact ⟨fun _ _ => rfl, rfl, rfl, rfl⟩

/-- R79: after a code is told, every open STALL entry of the lane bears it. -/
theorem occupancyCode_code {s : State} {l : Lane} {c : CarCode} {e : OccupancyEntry} (he : e ∈ (occupancyCode s l c).occ.list)
    (hkind : e.kind = .stall) (hlane : e.lane = l) (hstop : e.stop = .open) : e.code = c := by
  obtain ⟨x, _, rfl⟩ := List.mem_map.1 (show e ∈ s.occ.list.map (OccupancyEntry.recode l c) from he)
  unfold OccupancyEntry.recode at hkind hlane hstop ⊢
  split
  · rfl
  · next hnot =>
    rw [if_neg hnot] at hkind hlane hstop
    exact absurd ⟨hkind, hlane, hstop⟩ hnot

theorem PerLane.set_get_eq {α : Type} {p q : PerLane α} {l : Lane} (h : ∀ m, m ≠ l → q.get m = p.get m) : q = p.set l (q.get l) :=
  PerLane.ext_get fun m => by
    rw [PerLane.get_set]
    split
    · next hm => rw [hm]
    · next hm => exact h m hm

/-- R27, R54, R59, R79: the report of a decoded code that may have changed. -/
theorem reportChange_eq {s : State} {l : Lane} {new old : Option CarCode} (hcoded : (s.gates.get l).codedStall = new)
    (hnew : new ≠ old → ∃ c, new = some c) :
    reportChange s l old = if new = old then s else codeTold s l (new.getD 0) := by
  unfold reportChange
  rw [hcoded]
  cases new with
  | none =>
    by_cases h : none = old
    · simp [h]
    · obtain ⟨c, hc⟩ := hnew h
      cases hc
  | some c =>
    by_cases h : some c = old
    · simp [h]
    · rw [if_neg h, codeTold_eq]
      exact if_neg (fun e => h e.symm)

/-- What a report leaves in the gates and the occupancy list. -/
theorem reportChange_spec {s : State} {l : Lane} {new old : Option CarCode} (hcoded : (s.gates.get l).codedStall = new)
    (hnew : new ≠ old → ∃ c, new = some c) :
    (∀ m, m ≠ l → (reportChange s l old).gates.get m = s.gates.get m) ∧
    ((reportChange s l old).gates.get l).state = (s.gates.get l).state ∧
    ((reportChange s l old).gates.get l).level = (s.gates.get l).level ∧
    (new ≠ old → ∀ e ∈ (reportChange s l old).occ.list, e.kind = .stall → e.lane = l → e.stop = .open → some e.code = new) := by
  rw [reportChange_eq hcoded hnew]
  split
  · next h => exact ⟨fun _ _ => rfl, rfl, rfl, fun hne => absurd h hne⟩
  · next h =>
    obtain ⟨c, rfl⟩ := hnew h
    rw [codeTold_eq, Option.getD_some]
    obtain ⟨hother, hstate, hlevel, hocc⟩ := reportCode_spec hcoded
    refine ⟨hother, hstate, hlevel, fun _ e he hkind hlane hstop => ?_⟩
    rw [hocc] at he
    rw [occupancyCode_code he hkind hlane hstop]

theorem reportChange_fields (s : State) (l : Lane) (old : Option CarCode) : reportChange s l old = { s with
    gates := (reportChange s l old).gates
    handsets := (reportChange s l old).handsets
    bind := { s.bind with entries := (reportChange s l old).bind.entries, unsaved := (reportChange s l old).bind.unsaved,
                          runs := (reportChange s l old).bind.runs }
    occ := { s.occ with list := (reportChange s l old).occ.list }
    line := { s.line with queue := (reportChange s l old).line.queue, nextId := (reportChange s l old).line.nextId } } := by
  obtain ⟨_, _, _, _, _, _, _, _, h⟩ := reportChange_frame s l old
  rw [h]

/-- Settles O17: the edge is read into the gate, and a decoded code that is new is told. -/
theorem edgeInAStallNamesTheCar : Obligations.EdgeInAStallNamesTheCar := by
  intro l x s p sc dec hworks hblank hlevel hstall
  obtain ⟨sc', dec', hedge, hnone, hsome⟩ :=
    Gate.edge_stall (g := { s.gates.get l with level := some x, previous := some x }) hstall s.now x
  have hnew : dec' ≠ dec → ∃ c, dec' = some c := by
    intro hne
    cases hcode : frameCode ((s.gates.get l).decoder.edge x (Time.diff p.last s.now)).2 with
    | none => exact absurd (hnone hcode).2 hne
    | some c =>
      rw [(hsome c hcode).2] at hne ⊢
      exact ⟨_, nextDecoded_ne_none hne⟩
  obtain ⟨w, hw⟩ : ∃ w : State, w = s.setGate l { s.gates.get l with
    level := some x, previous := some x, gap := 0, state := .stall { p with last := s.now } sc' dec',
    decoder := ((s.gates.get l).decoder.edge x (Time.diff p.last s.now)).1 } := ⟨_, rfl⟩
  have hexec : exec (.irEdge l x x) s = .next (reportChange w l dec) := by
    have hold : (s.gates.get l).codedStall = dec := by simp [Gate.codedStall, hstall]
    rw [exec_irEdge, irEdge_of_edge hworks hblank hlevel, acceptEdge, Gate.accept_of_unblanked hblank, hold, hedge, hw]
  have hgate : w.gates.get l = { s.gates.get l with
      level := some x, previous := some x, gap := 0, state := .stall { p with last := s.now } sc' dec',
      decoder := ((s.gates.get l).decoder.edge x (Time.diff p.last s.now)).1 } := by
    rw [hw, State.setGate_gates, PerLane.get_set, if_pos rfl]
  have hcoded : (w.gates.get l).codedStall = dec' := by rw [hgate]; rfl
  obtain ⟨hother, hstate, hkept, hcode⟩ := reportChange_spec hcoded hnew
  have hgates : (reportChange w l dec).gates = s.gates.set l ((reportChange w l dec).gates.get l) :=
    PerLane.set_get_eq fun m hm => by
      rw [hother m hm, hw, State.setGate_gates, PerLane.get_set, if_neg hm]
  refine ⟨reportChange w l dec, sc', dec', hexec, by rw [hstate, hgate], by rw [hkept, hgate], hnone, fun c hc => ?_, hcode,
    fun h => ?_, ?_, ?_⟩
  · obtain ⟨hsc, hdec⟩ := hsome c hc
    obtain ⟨hsame, hfirst⟩ := StallCode.read_spec sc c
    rw [hsc, hdec]
    refine ⟨fun y hy hyc => by rw [hsame y hy hyc], fun hne => by rw [hfirst hne], ?_⟩
    rintro y ⟨⟩
    rw [nextDecoded, StallCode.read_code]
  · rw [reportChange_eq hcoded hnew, if_pos h, hw]
    rfl
  · rw [reportChange_eq hcoded hnew, hw]
    rfl
  · rw [← hgates]
    have hfields := reportChange_fields w l dec
    rw [hw] at hfields ⊢
    exact hfields

theorem ite_live {α : Type} (n : NodeState) (a b : α) :
    (if n.live = true then a else b) = if n = .sync ∨ n = .run then a else b := by
  simp only [live_iff]

/-- Settles O21: the gate is idled and its run ended before the condition is judged, so the judgement passes it by. -/
theorem stallEndStopsTheEmitter : Obligations.StallEndStopsTheEmitter := by
  intro l s hstalled hgap
  obtain ⟨u, hu⟩ : ∃ u : State, u = occupancyStallEnd (s.setGate l (s.gates.get l).idled.stopNotice) l := ⟨_, rfl⟩
  have hexec : exec (.stallEnd l) s = .next (stallEndReported u l) := by
    show Host.Outcome.next (stallEnd l s) = _
    have hdue : ((s.gates.get l).isStalled && decide (Config.gapTicks ≤ (s.gates.get l).gap)) = true := by
      simp [hstalled, Config.gapTicks, hgap]
    rw [hu, stallEnd, if_pos hdue]
  have hgate : u.gates.get l = (s.gates.get l).idled.stopNotice := by
    rw [hu]
    exact (PerLane.get_set _ _ _ _).trans (if_pos rfl)
  have hidle : (u.gates.get l).codedStall = none := by rw [hgate]; rfl
  obtain ⟨hjudgedGate, hjudgedRun⟩ := judgeLocal_other_of_uncoded (s := u.setRun l none) hidle
  have hlist : (stallEndReported u l).occ = u.occ := by
    unfold stallEndReported
    split
    · exact judgeLocal_occ _
    · rfl
  refine ⟨stallEndReported u l, hexec, ?_, by rw [hlist, hu]; rfl, fun hlive => ?_, ?_, ?_⟩
  · unfold stallEndReported
    split
    · rw [hjudgedGate]
      exact hgate
    · exact hgate
  · have hul : u.node.live = true := by rw [hu]; exact hlive
    rw [stallEndReported, if_pos hul, hjudgedRun]
    exact (PerLane.get_set _ _ _ _).trans (if_pos rfl)
  · rw [hu]
    exact ite_live s.node _ _
  · obtain ⟨_, _, _, _, _, _, _, h⟩ := stallEndReported_frame u l
    rw [h, hu]
    rfl

/-! ## A decision that only reports -/

theorem Outcome.counts_of_consumes {o : Outcome} (h : o.consumes = false) : o.counts = false := by
  cases o <;> simp_all [Outcome.consumes, Outcome.counts]

theorem consumed_none {c : Candidate} {o : Outcome} (h : o.consumes = false) : consumed c o = none := by
  unfold consumed
  split
  · exact if_neg (by simp [h])
  · rfl

theorem countsDown_false {c : Candidate} {o : Outcome} (h : o.counts = false) : countsDown c o = false := by
  unfold countsDown
  split
  · exact h
  · rfl

/-- R115: an outcome that consumes no request counts no order down and enters no car: its notice is all that it leaves. -/
theorem settle_quiet (s : State) (c : Candidate) {d : Decided} (h : d.outcome.consumes = false) : settle s c d =
    queuePass s (decisionNotice s c d) (Time.plus c.record.tRef Config.passDeadline) .planner := by
  have hrequest : settleRequest s c d.outcome = s := by simp [settleRequest, consumed_none h]
  have horder : settleOrder s c d.outcome = s := by
    unfold settleOrder
    split
    · rw [if_neg (by simp [countsDown_false (Outcome.counts_of_consumes h)])]
    · rfl
  have htarget : settleTarget s c d = s := by
    unfold settleTarget
    split
    · next ho => rw [ho] at h; cases h
    · next ho => rw [ho] at h; cases h
    · next ho => rw [ho] at h; cases h
    all_goals rfl
  have htaken : d.outcome ≠ .taken := by
    rintro ho
    rw [ho] at h
    cases h
  rw [settle, hrequest, horder, htarget, settleNotice, if_neg htaken]

/-- R97, R98: a stall is NOT_READY in SYNC and STALLED else. -/
theorem ladder_stalled {s : State} {c : Candidate} (h : c.record.kind = .stalled) :
    ladder s c = (s, { outcome := if s.node = .sync then .notReady else .stalled, laneOut := c.record.lane }) := by
  unfold ladder
  by_cases hn : s.node = .sync
  · simp [hn]
  · simp [hn, h]

theorem decideRecord_stalled {s : State} {r : PassageRecord} (h : r.kind = .stalled) : decideRecord s r =
    queuePass s (decisionNotice s (candidate s r) { outcome := if s.node = .sync then .notReady else .stalled, laneOut := r.lane })
      (Time.plus r.tRef Config.passDeadline) .planner := by
  have hladder : ladder s (candidate s r) =
      (s, { outcome := if s.node = .sync then .notReady else .stalled, laneOut := r.lane }) := ladder_stalled h
  unfold decideRecord
  simp only [hladder]
  exact settle_quiet s (candidate s r) (by split <;> rfl)

/-- R154: with room, a frame whose deadline lies ahead is held. -/
theorem mem_queueAfter_self {node : NodeState} {now : Time} {f : TxFrame} {q : List TxFrame} (haccepts : acceptsFrame node f.body = true)
    (hdeadline : arrived now f.deadline = false) (hroom : q.length < Config.queueCap) : f ∈ queueAfter node now f q := by
  unfold queueAfter makeRoom
  rw [if_neg (by simp [haccepts, hdeadline]), if_pos hroom]
  exact (mem_enterInOrder _ _ _ _).2 (.inl rfl)

theorem queueAfter_length_le (node : NodeState) (now : Time) (f : TxFrame) (q : List TxFrame) :
    (queueAfter node now f q).length ≤ q.length + 1 := by
  rcases queueAfter_spec node now f q with e | ⟨_, _, r, hr, e⟩
  · rw [e]; omega
  · have := (makeRoom_spec q r hr).1.length_le
    rw [e, enterFrame, enterInOrder_length]
    omega

theorem enterOccupancy_mem (s : State) (e : OccupancyEntry) : e ∈ (enterOccupancy s e).occ.list :=
  List.mem_append_right _ (List.mem_singleton.2 rfl)

/-- R78, R79: a passage record leaves its entry and its lane's last close. -/
theorem takeRecord_spec (s : State) (r : PassageRecord) : recordEntry s.working r ∈ (takeRecord s r).occ.list ∧
    (takeRecord s r).occ.lastClose = s.occ.lastClose.set r.lane (some r.handover) := by
  refine ⟨enterOccupancy_mem (matchArrival s r) (recordEntry s.working r), ?_⟩
  obtain ⟨_, _, h⟩ := enterOccupancy_frame (matchArrival s r) (recordEntry s.working r)
  unfold takeRecord
  rw [h]
  rfl

/-- R29: what a stall's record is handed on to. -/
theorem handOver_eq {s : State} (h : s.node = .sync ∨ s.node = .run ∨ s.node = .fault) (r : PassageRecord) :
    handOver s r = if s.node = .fault then takeRecord s r else decideRecord (takeRecord s r) r := by
  unfold handOver
  rcases h with h | h | h <;> simp [h, NodeState.live]

/-- R29, R98: of a stall's record the occupancy block keeps the entry, and the queue at most one notice. -/
theorem handOver_stalled_frame {s : State} {r : PassageRecord} (h : r.kind = .stalled)
    (hnode : s.node = .sync ∨ s.node = .run ∨ s.node = .fault) : ∃ q n, handOver s r =
      { takeRecord s r with line := { s.line with queue := q, nextId := n } } := by
  have hline : (takeRecord s r).line = s.line := by
    obtain ⟨_, _, _, hh⟩ := takeRecord_frame s r
    rw [hh]
  rw [handOver_eq hnode]
  split
  · exact ⟨s.line.queue, s.line.nextId, by rw [← hline]⟩
  · rw [decideRecord_stalled h]
    exact ⟨_, _, by rw [← hline]; rfl⟩

/-- R98, R116: in SYNC and RUN, with room, a stall's notice is queued. -/
theorem handOver_stalled_notice {s : State} {r : PassageRecord} (h : r.kind = .stalled) (hlive : s.node = .sync ∨ s.node = .run)
    (hroom : s.line.queue.length < Config.queueCap) (hahead : arrived s.now (Time.plus r.tRef Config.passDeadline) = false) :
    (handOver s r).line.queue.length ≤ s.line.queue.length + 1 ∧
    ∃ f ∈ (handOver s r).line.queue, f.deadline = Time.plus r.tRef Config.passDeadline ∧
      ∃ n, f.body = .pass n ∧ n.code = r.code ∧ n.laneIn = r.lane ∧ n.laneOut = r.lane ∧ n.pressed = none ∧
        n.outcome = if s.node = .sync then .notReady else .stalled := by
  have hne : s.node ≠ .fault := by rcases hlive with e | e <;> rw [e] <;> decide
  have htaken : (takeRecord s r).line = s.line ∧ (takeRecord s r).node = s.node ∧ (takeRecord s r).now = s.now := by
    obtain ⟨_, _, _, hh⟩ := takeRecord_frame s r
    rw [hh]; exact ⟨rfl, rfl, rfl⟩
  obtain ⟨hline, hnode, hnow⟩ := htaken
  rw [handOver_eq (by tauto), if_neg hne, decideRecord_stalled h]
  refine ⟨by rw [← hline]; exact queueAfter_length_le _ _ _ _, _, mem_queueAfter_self ?_ ?_ ?_, rfl, _, rfl, rfl, rfl, rfl, consumed_none ?_, by rw [← hnode]; rfl⟩
  · rw [hnode]
    rcases hlive with e | e <;> rw [e] <;> rfl
  · rw [hnow]; exact hahead
  · rw [hline]; exact hroom
  · show Outcome.consumes (if _ then _ else _) = false
    split <;> rfl

/-- With room a report drops no frame. -/
theorem reportChange_mem {s : State} {l : Lane} {old : Option CarCode} {f : TxFrame} (hf : f ∈ s.line.queue)
    (hroom : s.line.queue.length < Config.queueCap) : f ∈ (reportChange s l old).line.queue := by
  unfold reportChange
  split
  · next c _ =>
    split
    · exact hf
    · unfold reportCode codeReported
      split
      · obtain ⟨_, h⟩ := endRunOnCode_frame (occupancyCode s l c) l c
        have hline : (endRunOnCode (occupancyCode s l c) l c).line = s.line := by rw [h]; rfl
        exact judgeLocal_mem (by rw [hline]; exact hf) (by rw [hline]; exact hroom)
      · exact hf
  · exact hf

/-- R79: a code that an entry bears already changes nothing of it. -/
theorem OccupancyEntry.recode_same {l : Lane} {e : OccupancyEntry} : e.recode l e.code = e := by
  unfold OccupancyEntry.recode
  split <;> rfl

/-- A report of the code that an entry bears keeps the entry. -/
theorem reportChange_entry {s : State} {l : Lane} {old : Option CarCode} {e : OccupancyEntry} (he : e ∈ s.occ.list)
    (hcode : ∀ c, (s.gates.get l).codedStall = some c → c = e.code) : e ∈ (reportChange s l old).occ.list := by
  unfold reportChange
  split
  · next c hc =>
    split
    · exact he
    · rw [(reportCode_spec hc).2.2.2, hcode c hc]
      exact List.mem_map.2 ⟨e, he, OccupancyEntry.recode_same⟩
  · exact he

/-- Settles O20: the gate is in STALL, its record is handed on, and then the decoded code, where it is known, is told. -/
theorem stallDeclarationHoldsTheLane : Obligations.StallDeclarationHoldsTheLane := by
  intro l s p hopen hdue hnode
  obtain ⟨u, hu⟩ : ∃ u : State, u = s.setGate l ((s.gates.get l).stalled p) := ⟨_, rfl⟩
  obtain ⟨v, hv⟩ : ∃ v : State, v = handOver u (stalledRecord s.now l p) := ⟨_, rfl⟩
  have hexec : exec (.stallDeclaration l) s = .next (reportChange v l none) := by
    show Host.Outcome.next (stallDeclaration l s) = _
    rw [hv, hu]
    simp only [stallDeclaration, hopen]
    exact congrArg _ (if_pos hdue)
  have hunode : u.node = s.node := by rw [hu]; rfl
  obtain ⟨q, n, hframe⟩ := handOver_stalled_frame (s := u) (r := stalledRecord s.now l p) rfl (by rw [hunode]; exact hnode)
  obtain ⟨hentry, hclose⟩ := takeRecord_spec u (stalledRecord s.now l p)
  obtain ⟨_, _, _, htaken⟩ := takeRecord_frame u (stalledRecord s.now l p)
  have hvgates : v.gates = s.gates.set l ((s.gates.get l).stalled p) := by
    rw [hv, hframe, htaken, hu]
    rfl
  have hgate : v.gates.get l = (s.gates.get l).stalled p := by rw [hvgates, PerLane.get_set, if_pos rfl]
  have hcoded : (v.gates.get l).codedStall = p.decodedAtStall := by rw [hgate]; rfl
  have hreported : ∀ c, p.decodedAtStall = some c → c = p.code.reported := by
    intro c hc
    unfold Passage.decodedAtStall Passage.stallCode at hc
    cases hp : p.code <;> simp_all [PassageCode.reported]
  obtain ⟨_, hstate, _, _⟩ := reportChange_spec (old := none) hcoded (fun h => Option.ne_none_iff_exists'.1 h)
  have hvocc : v.occ = (takeRecord u (stalledRecord s.now l p)).occ := by rw [hv, hframe]
  have hfields := reportChange_fields v l none
  refine ⟨reportChange v l none, hexec, fun c hc => ?_, fun hc => ?_, ⟨recordEntry u.working (stalledRecord s.now l p), ?_, ?_⟩,
    ?_, fun hfault hroom => ?_, ?_, ?_⟩
  · rw [hstate, hgate]
    simp [Gate.stalled, Passage.stallCode, Passage.decodedAtStall, hc]
  · rw [hstate, hgate]
    rcases hc with hc | hc <;> simp [Gate.stalled, Passage.stallCode, Passage.decodedAtStall, hc]
  · exact reportChange_entry (by rw [hvocc]; exact hentry) (fun c hc => hreported c (hcoded.symm.trans hc))
  · rw [hu]
    exact ⟨rfl, rfl, rfl, rfl, rfl, rfl, rfl⟩
  · rw [hfields]
    show v.occ.lastClose = _
    rw [hvocc, hclose, hu]
    rfl
  · have hlive : u.node = .sync ∨ u.node = .run := by
      rw [hunode]
      tauto
    have huline : u.line.queue.length < 7 := by rw [hu]; exact hroom
    obtain ⟨hlength, f, hf, hdeadline, m, hm⟩ := handOver_stalled_notice (s := u) (r := stalledRecord s.now l p) rfl hlive
      (Nat.lt_succ_of_lt huline) (by rw [hu]; exact arrived_plus s.now 3125 (by decide) (by decide))
    rw [hunode] at hm
    rw [← hv] at hf hlength
    exact ⟨f, reportChange_mem hf (by show _ < 8; omega), hdeadline, m, hm⟩
  · intro sc dec u' r v'
    have hdec : dec = p.decodedAtStall := by
      show Option.bind (match p.code with | .read c => some _ | .absent | .conflicting => none) _ = _
      unfold Passage.decodedAtStall Passage.stallCode
      cases p.code <;> rfl
    have hu' : u' = u := by
      have hsc : sc = p.stallCode := by
        show (match p.code with | .read c => some _ | .absent | .conflicting => none) = _
        unfold Passage.stallCode
        cases p.code <;> rfl
      rw [hu]
      show { s with gates := s.gates.set l { s.gates.get l with state := .stall p sc dec } } = _
      rw [hdec, hsc]
      rfl
    have hv' : v' = v := by
      rw [hv, handOver_eq (by rw [hunode]; exact hnode), hunode, ← hu']
      rfl
    rw [reportChange_eq hcoded (fun h => Option.ne_none_iff_exists'.1 h), hv', hdec]
    cases p.decodedAtStall with
    | none => rfl
    | some c => rfl
  · obtain ⟨t, ht⟩ : ∃ t, t = reportChange v l none := ⟨_, rfl⟩
    rw [← ht] at hfields ⊢
    have hheld : v.occ.holds = t.occ.holds ∧ v.occ.lastClose = t.occ.lastClose ∧ v.occ.approach = t.occ.approach := by
      rw [hfields]
      exact ⟨rfl, rfl, rfl⟩
    have hkept : v = { s with
        gates := v.gates
        occ := { s.occ with list := v.occ.list, holds := t.occ.holds, lastClose := t.occ.lastClose, approach := t.occ.approach }
        line := { s.line with queue := v.line.queue, nextId := v.line.nextId } } := by
      obtain ⟨hh, hc, ha⟩ := hheld
      rw [← hh, ← hc, ← ha, hv, hframe, htaken, hu]
      rfl
    obtain ⟨gates, hgates⟩ : ∃ g, g = v.gates := ⟨_, rfl⟩
    obtain ⟨list, hlist⟩ : ∃ g, g = v.occ.list := ⟨_, rfl⟩
    obtain ⟨queue, hqueue⟩ : ∃ g, g = v.line.queue := ⟨_, rfl⟩
    obtain ⟨nextId, hnextId⟩ : ∃ g, g = v.line.nextId := ⟨_, rfl⟩
    rw [← hgates, ← hlist, ← hqueue, ← hnextId] at hkept
    exact hfields.trans (by rw [hkept])

end Sys2Proof.Machine
end


/-! # Bits and the numbers they spell -/

section
namespace Sys2Proof.Machine

theorem natOfBits_concat (bits : List Bool) (b : Bool) : natOfBits (bits ++ [b]) = 2 * natOfBits bits + b.toNat := by
  rw [natOfBits, List.foldl_append]
  rfl

theorem natOfBits_append (a b : List Bool) : natOfBits (a ++ b) = natOfBits a * 2 ^ b.length + natOfBits b := by
  induction b using List.reverseRecOn with
  | nil => simp [natOfBits]
  | append_singleton b x ih =>
    rw [← List.append_assoc, natOfBits_concat, natOfBits_concat, ih, List.length_append, List.length_singleton, pow_succ]
    ring

theorem natOfBits_cons (x : Bool) (b : List Bool) : natOfBits (x :: b) = x.toNat * 2 ^ b.length + natOfBits b := by
  rw [← List.singleton_append, natOfBits_append]
  cases x <;> rfl

theorem natOfBits_lt (bits : List Bool) : natOfBits bits < 2 ^ bits.length := by
  induction bits with
  | nil => simp [natOfBits]
  | cons x bits ih =>
    rw [natOfBits_cons, List.length_cons, pow_succ]
    cases x <;> simp <;> omega

@[simp] theorem bitsOfNat_length (w n : Nat) : (bitsOfNat w n).length = w := by
  rw [bitsOfNat_eq_map_testBit, List.length_map, List.length_range]

/-- The low bits of a number spell its remainder. -/
theorem natOfBits_bitsOfNat (w n : Nat) : natOfBits (bitsOfNat w n) = n % 2 ^ w := by
  induction w with
  | zero => simp [natOfBits, bitsOfNat, Nat.mod_one]
  | succ w ih =>
    rw [bitsOfNat, natOfBits_cons, ih, bitsOfNat_length, Nat.toNat_testBit, Nat.mod_pow_succ]
    ring

theorem natOfBits_bitsOf {w : Nat} (x : BitVec w) : natOfBits (bitsOf x) = x.toNat := by
  rw [bitsOf, natOfBits_bitsOfNat, Nat.mod_eq_of_lt x.isLt]

/-- Two lists of one length that spell one number are one list. -/
theorem natOfBits_inj {a b : List Bool} (hlength : a.length = b.length) (h : natOfBits a = natOfBits b) : a = b := by
  induction a generalizing b with
  | nil => exact (List.length_eq_zero_iff.1 hlength.symm).symm
  | cons x a ih =>
    cases b with
    | nil => cases hlength
    | cons y b =>
      have htail : a.length = b.length := Nat.succ.inj hlength
      have ha := natOfBits_lt a
      have hb := natOfBits_lt b
      rw [natOfBits_cons, natOfBits_cons, htail] at h
      rw [htail] at ha
      have hxy : x = y ∧ natOfBits a = natOfBits b := by
        cases x <;> cases y <;> simp at h ⊢ <;> omega
      rw [hxy.1, ih htail hxy.2]

theorem bitsOfNat_natOfBits {w : Nat} {bits : List Bool} (h : bits.length = w) : bitsOfNat w (natOfBits bits) = bits := by
  refine natOfBits_inj (by rw [bitsOfNat_length, h]) ?_
  rw [natOfBits_bitsOfNat, Nat.mod_eq_of_lt (h ▸ natOfBits_lt bits)]

theorem bitsOf_ofNat_natOfBits {w : Nat} {bits : List Bool} (h : bits.length = w) : bitsOf (BitVec.ofNat w (natOfBits bits)) = bits := by
  refine natOfBits_inj (by rw [bitsOf_length, h]) ?_
  rw [natOfBits_bitsOf, BitVec.toNat_ofNat, Nat.mod_eq_of_lt (h ▸ natOfBits_lt bits)]

theorem payloadWord_bitsOf {w : Nat} (x : BitVec w) : payloadWord w (bitsOf x) = x := by
  rw [payloadWord, natOfBits_bitsOf, BitVec.ofNat_toNat, BitVec.setWidth_eq]

/-! ## The code frame (R20, R21, R22) -/

/-- R22: the bits of a valid frame. -/
theorem validCode_iff (bits : List Bool) (c : CarCode) :
    validCode bits = some c ↔ c ≠ 0 ∧ bits = bitsOf c ++ bitsOf (~~~c) := by
  constructor
  · intro h
    simp only [validCode] at h
    split at h
    · next hvalid =>
      obtain ⟨hlength, hcomplement, hzero⟩ := hvalid
      have htake : (bits.take 4).length = 4 := by rw [List.length_take, hlength]; rfl
      have hc : BitVec.ofNat 4 (natOfBits (bits.take 4)) = c := Option.some.inj h
      have hbits : bitsOf c = bits.take 4 := by rw [← hc, bitsOf_ofNat_natOfBits htake]
      refine ⟨fun h0 => hzero ?_, ?_⟩
      · rw [← hbits, natOfBits_bitsOf, h0]
        rfl
      · rw [bitsOf_not, hbits, ← hcomplement, List.take_append_drop]
    · cases h
  · rintro ⟨hc, rfl⟩
    have htake : (bitsOf c ++ bitsOf (~~~c)).take 4 = bitsOf c := List.take_left' (bitsOf_length c)
    have hdrop : (bitsOf c ++ bitsOf (~~~c)).drop 4 = bitsOf (~~~c) := List.drop_left' (bitsOf_length c)
    have hnat : natOfBits (bitsOf c) ≠ 0 := by
      rw [natOfBits_bitsOf]
      exact fun h => hc (BitVec.eq_of_toNat_eq h)
    unfold validCode
    rw [htake, hdrop, if_pos ⟨by simp, bitsOf_not c, hnat⟩, natOfBits_bitsOf, BitVec.ofNat_toNat, BitVec.setWidth_eq]

/-- R20: the marks that a data bit may be. -/
def spells (b : Bool) (ticks : Int) : Prop := if b then 4 ≤ ticks ∧ ticks ≤ 6 else 1 ≤ ticks ∧ ticks ≤ 3

theorem classOfMark_sync {ticks : Int} (hlow : 10 ≤ ticks) (hhigh : ticks ≤ 14) : classOfMark ticks = .sync := by
  unfold classOfMark
  rw [if_neg (by omega), if_neg (by omega), if_pos ⟨hlow, hhigh⟩]

theorem classOfMark_spells {b : Bool} {ticks : Int} (h : spells b ticks) : classOfMark ticks = if b then .long else .short := by
  unfold classOfMark
  cases b with
  | false =>
    obtain ⟨hlow, hhigh⟩ : 1 ≤ ticks ∧ ticks ≤ 3 := h
    exact if_pos ⟨hlow, hhigh⟩
  | true =>
    obtain ⟨hlow, hhigh⟩ : 4 ≤ ticks ∧ ticks ≤ 6 := h
    rw [if_neg (by omega), if_pos ⟨hlow, hhigh⟩]
    rfl

/-- R21: a space and a mark in class carry the decoder one bit on. -/
theorem Decoder.edge_bit {bits : List Bool} {b : Bool} {space mark : Int} (hspace : 1 ≤ space ∧ space ≤ 3) (hmark : spells b mark) :
    ((Decoder.frame true bits).edge true space).1.edge false mark =
      if bits.length = 7 then (.hunt, some (bits ++ [b])) else (.frame true (bits ++ [b]), none) := by
  have hin : spaceInClass space = true := by simp [spaceInClass, hspace]
  have hplace : ((Decoder.frame true bits).edge true space).1 = .frame false bits := by
    show (if spaceInClass space then Decoder.frame false bits else .hunt) = _
    rw [hin]
    rfl
  rw [hplace]
  show (Decoder.frame false bits).mark (classOfMark mark) = _
  rw [classOfMark_spells hmark]
  cases b <;> rfl

/-- R21: up to the seventh bit the decoder holds the bits gathered. -/
theorem Decoder.edges_of_bits {bits : List Bool} {space mark : Nat → Int} {start : Decoder × Option (List Bool)}
    (hspace : ∀ i, i < 8 → 1 ≤ space i ∧ space i ≤ 3) (hmark : ∀ i, i < 8 → spells (bits.getD i false) (mark i))
    (hstart : start.1 = .frame true []) (hlength : bits.length = 8) (n : Nat) (hn : n ≤ 7) :
    ((List.range n).foldl (fun (r : Decoder × Option (List Bool)) i => (r.1.edge true (space i)).1.edge false (mark i)) start).1
      = .frame true (bits.take n) := by
  induction n with
  | zero => simpa using hstart
  | succ n ih =>
    have hget : bits.take (n + 1) = bits.take n ++ [bits.getD n false] := by
      rw [List.take_add_one, List.getD_eq_getElem?_getD]
      have : n < bits.length := by omega
      simp [this]
    rw [List.range_succ, List.foldl_append, List.foldl_cons, List.foldl_nil, ih (by omega),
      Decoder.edge_bit (hspace n (by omega)) (hmark n (by omega)), if_neg (by simp; omega), hget]

/-- Settles O18: the sync mark opens the frame, seven bits are gathered, and the eighth completes it. -/
theorem carCodeFrameIsRead : Obligations.CarCodeFrameIsRead := by
  refine ⟨fun c d sync space mark hc hlow hhigh hspace hmark => ?_, validCode_iff⟩
  have hlength : (bitsOf c ++ bitsOf (~~~c)).length = 8 := by simp
  have hstart : (d.edge false sync).1 = .frame true [] := by
    show (d.mark (classOfMark sync)).1 = _
    rw [classOfMark_sync hlow hhigh]
    cases d <;> rfl
  have hseven := Decoder.edges_of_bits hspace hmark hstart hlength 7 (Nat.le_refl 7)
  have hlast : (bitsOf c ++ bitsOf (~~~c)).take 7 ++ [(bitsOf c ++ bitsOf (~~~c)).getD 7 false] = bitsOf c ++ bitsOf (~~~c) := by
    rw [List.getD_eq_getElem?_getD]
    conv_rhs => rw [← List.take_length (l := bitsOf c ++ bitsOf (~~~c)), hlength, List.take_add_one]
    simp [hlength]
  intro r
  have hr : r = (.hunt, some (bitsOf c ++ bitsOf (~~~c))) := by
    show (List.range 8).foldl _ _ = _
    rw [List.range_succ, List.foldl_append, List.foldl_cons, List.foldl_nil, hseven,
      Decoder.edge_bit (hspace 7 (by decide)) (hmark 7 (by decide)), if_pos (by simp), hlast]
  rw [hr]
  exact ⟨rfl, (validCode_iff _ _).2 ⟨hc, rfl⟩⟩

end Sys2Proof.Machine
end


/-! # Words laid out and read back (R174, R175, R177) -/

section
namespace Sys2Proof.Machine

open Sys2Proof.Safety

/-! Fields of a word laid side by side. The widths are not indexed, so that a numeral for their sum still matches. -/

theorem extract_high {n m start len : Nat} (a : BitVec n) (b : BitVec m) (h : m ≤ start) :
    BitVec.extractLsb' (n := no_index (n + m)) start len (HAppend.hAppend (γ := no_index (BitVec (n + m))) a b) = a.extractLsb' (start - m) len := by
  ext i hi
  simp only [BitVec.getElem_extractLsb', BitVec.getLsbD_append]
  rw [if_neg (by omega)]
  congr 1
  omega

theorem extract_low {n m start len : Nat} (a : BitVec n) (b : BitVec m) (h : start + len ≤ m) :
    BitVec.extractLsb' (n := no_index (n + m)) start len (HAppend.hAppend (γ := no_index (BitVec (n + m))) a b) = b.extractLsb' start len := by
  ext i hi
  simp only [BitVec.getElem_extractLsb', BitVec.getLsbD_append]
  rw [if_pos (by omega)]

theorem getLsbD_high {n m i : Nat} (a : BitVec n) (b : BitVec m) (h : m ≤ i) :
    BitVec.getLsbD (w := no_index (n + m)) (HAppend.hAppend (γ := no_index (BitVec (n + m))) a b) i = a.getLsbD (i - m) := by
  rw [BitVec.getLsbD_append, if_neg (by omega)]

theorem getLsbD_low {n m i : Nat} (a : BitVec n) (b : BitVec m) (h : i < m) :
    BitVec.getLsbD (w := no_index (n + m)) (HAppend.hAppend (γ := no_index (BitVec (n + m))) a b) i = b.getLsbD i := by
  rw [BitVec.getLsbD_append, if_pos h]

theorem Lane.ofField_field (l : Lane) : Lane.ofField (Machine.Lane.field l) = l := by
  cases l <;> rfl

theorem Dir.ofBit_bit (d : Dir) : Dir.ofBit (Machine.Dir.bit d) = d := by
  cases d <;> rfl

theorem Outcome.ofCode_code (o : Outcome) : Outcome.ofCode o.code.toNat = some o := by
  cases o <;> rfl

theorem decodeBind_encodeBind (b : BindBody) : decodeBind (encodeBind b) = b := by
  simp (disch := decide) only [encodeBind, decodeBind, extract_high, extract_low, getLsbD_high, getLsbD_low]
  simp

theorem decodeBlock_encodeBlock (b : Block) : decodeBlock (encodeBlock b) = b := by
  simp (disch := decide) only [encodeBlock, decodeBlock, extract_high, extract_low]
  simp

theorem decodeBeacon_encodeBeacon {ds dm lanes : Nat} (hds : ds < 1024) (hdm : dm < 1024) (hlanes : lanes < 8) :
    decodeBeacon (encodeBeacon ds dm lanes) = { ds := ds, dm := dm, lanes := lanes } := by
  simp (disch := decide) only [encodeBeacon, decodeBeacon, extract_high, extract_low]
  simp [Nat.mod_eq_of_lt hds, Nat.mod_eq_of_lt hdm, Nat.mod_eq_of_lt hlanes]

theorem decodePass_encodePass {p : PassBody} {age : Nat} (hage : age < 65536) (hpace : p.pace.ticks < 4096)
    (hstart : p.startOffset < 32768) (hend : p.endOffset < 32768) (horder : ∀ o, p.order = some o → o.remaining < 8) :
    decodePass (encodePass p age) =
      { code := p.code, laneIn := p.laneIn, laneOut := p.laneOut, outcome := some p.outcome, pressed := p.pressed,
        order := p.order, pace := p.pace, age := age, startOffset := p.startOffset, endOffset := p.endOffset } := by
  have hpressed : (if p.pressed.isSome then some (p.pressed.getD 0#4) else none) = p.pressed := by
    cases p.pressed <;> rfl
  simp (disch := decide) only [encodePass, decodePass, extract_high, extract_low, getLsbD_high, getLsbD_low]
  simp [Lane.ofField_field, Outcome.ofCode_code, hage, hstart, hend]
  refine ⟨hpressed, ?_, ?_⟩
  · cases ho : p.order with
    | none => rfl
    | some o => simp [Dir.ofBit_bit, Nat.mod_eq_of_lt (horder o ho)]
  · rw [Nat.mod_eq_of_lt hpace]

/-- Settles O46: each field stands at its own place of its word. -/
theorem payloadsAreReadBack : Obligations.PayloadsAreReadBack := by
  refine ⟨fun p age hage hpace hstart hend horder => ?_, fun b => ?_, fun ds dm lanes hds hdm hlanes => ?_, fun b => ?_⟩
  · rw [payloadWord_bitsOf, decodePass_encodePass hage hpace hstart hend horder]
  · rw [payloadWord_bitsOf, decodeBind_encodeBind]
  · rw [payloadWord_bitsOf, decodeBeacon_encodeBeacon hds hdm hlanes]
  · rw [payloadWord_bitsOf, decodeBlock_encodeBlock]

/-! ## The save and its restore (R68, R177) -/

/-- R177: a lawful binding of a handset not taken is restored as it was, without its order. -/
theorem restoreRecord_saveRecord {taken : List HandsetAddr} {b : Binding} (hhandset : b.handset ≠ some 0 ∧ b.handset ≠ some 65535)
    (horigin : b.origin ≠ 0) (hfree : ∀ h, b.handset = some h → h ∉ taken) :
    restoreRecord taken (saveRecord b) = { b with standing := .empty } := by
  obtain ⟨hzero, hall⟩ := hhandset
  have hread : (saveRecord b).extractLsb' 16 16 = b.handset.getD 0 ∧ (saveRecord b).extractLsb' 32 6 = b.origin ∧
      (saveRecord b).extractLsb' 0 16 = b.stamp ∧ (saveRecord b).getLsbD 39 = b.handset.isSome ∧
      (saveRecord b).getLsbD 38 = b.kept := by
    simp (disch := decide) only [saveRecord, extract_high, extract_low, getLsbD_high, getLsbD_low]
    simp
  obtain ⟨hhandset, horig, hstamp, hbound, hkept⟩ := hread
  simp only [restoreRecord, hhandset, horig, hstamp, hbound, hkept, if_neg horigin]
  cases hb : b.handset with
  | none => simp
  | some h =>
    have hne : h ≠ 0#16 ∧ h ≠ 65535#16 := ⟨fun e => hzero (by rw [hb, e]; rfl), fun e => hall (by rw [hb, e]; rfl)⟩
    simp [hne.1, hne.2, hfree h hb]

/-- R177: records are restored in order, each handset once. -/
theorem restoreRecords_saveRecord {bs : List Binding} {taken : List HandsetAddr}
    (hlawful : ∀ b ∈ bs, (b.handset ≠ some 0 ∧ b.handset ≠ some 65535) ∧ b.origin ≠ 0)
    (hfree : ∀ b ∈ bs, ∀ h, b.handset = some h → h ∉ taken)
    (honce : bs.Pairwise (fun a b => ∀ h, a.handset = some h → b.handset ≠ some h)) :
    restoreRecords taken (bs.map saveRecord) = bs.map (fun b => { b with standing := .empty }) := by
  induction bs generalizing taken with
  | nil => rfl
  | cons b bs ih =>
    obtain ⟨hhead, htail⟩ := List.pairwise_cons.1 honce
    obtain ⟨hb, horigin⟩ := hlawful b List.mem_cons_self
    have hrecord := restoreRecord_saveRecord hb horigin (hfree b List.mem_cons_self)
    rw [List.map_cons, List.map_cons, restoreRecords, hrecord]
    refine congrArg _ (ih (fun x hx => hlawful x (List.mem_cons_of_mem _ hx)) (fun x hx h hh => ?_) htail)
    have hrest := hfree x (List.mem_cons_of_mem _ hx) h hh
    cases hbh : b.handset with
    | none => exact hrest
    | some k =>
      refine fun hmem => (List.mem_cons.1 hmem).elim (fun e => hhead x hx k hbh (by rw [hh, e])) hrest

/-- Settles O35: the records of a lawful table bind each handset once. -/
theorem savedTableIsRestored : Obligations.SavedTableIsRestored := by
  intro t honce hlawful
  have hget : ∀ b ∈ t.cells, ∃ c : Car, t.get c = b := by
    intro b hb
    obtain ⟨i, hi, rfl⟩ := List.mem_iff_getElem.1 hb
    exact ⟨⟨i, by have := t.size_eq; omega⟩, rfl⟩
  have hcells : restoreRecords [] (t.cells.map saveRecord) = t.cells.map (fun b => { b with standing := .empty }) := by
    refine restoreRecords_saveRecord (fun b hb => ?_) (fun _ _ _ _ => List.not_mem_nil) ?_
    · obtain ⟨c, rfl⟩ := hget b hb
      obtain ⟨hzero, hall, horigin⟩ := hlawful c
      exact ⟨⟨hzero, hall⟩, horigin⟩
    · refine List.pairwise_iff_getElem.2 fun i j hi hj hij h ha hb => ?_
      have hsize := t.size_eq
      have := honce ⟨i, by omega⟩ ⟨j, by omega⟩ h ha hb
      simp at this
      omega
  show CodeTable.mk _ _ = CodeTable.mk _ _
  congr

end Sys2Proof.Machine
end


/-! # Frames on the wire (R144, R145, R146, R148, R151) -/

section
namespace Sys2Proof.Machine

/-- R144, R146: the spacers that are put in are taken out again. -/
theorem withoutSpacers_withSpacers (data : List Bool) (n : Nat) (hn : n ≤ 8) :
    withoutSpacers n (withSpacers n data) = some data := by
  induction data generalizing n with
  | nil => rfl
  | cons b rest ih =>
    rcases Nat.lt_or_eq_of_le hn with hlt | rfl
    · have hne : n ≠ 8 := by omega
      rw [withSpacers, if_neg hne, withoutSpacers, if_neg hne, ih (n + 1) (by omega)]
      rfl
    · rw [withSpacers, if_pos rfl, withoutSpacers, if_pos rfl, if_pos rfl, withoutSpacers, if_neg (by decide),
        ih 1 (by decide)]
      rfl

/-! ## The data bits and their fields -/

/-- R144: the seventeen bits before the payload. -/
def frameHead (level : BitVec 2) (kind : FrameKind) (originator : NodeAddr) (bytes : Nat) : List Bool :=
  bitsOf level ++ bitsOf kind.number ++ bitsOf originator ++ bitsOfNat 5 bytes

theorem frameHead_length (level : BitVec 2) (kind : FrameKind) (originator : NodeAddr) (bytes : Nat) :
    (frameHead level kind originator bytes).length = 17 := by
  simp [frameHead]

theorem frameHead_level (level : BitVec 2) (kind : FrameKind) (originator : NodeAddr) (bytes : Nat) (rest : List Bool) :
    (frameHead level kind originator bytes ++ rest).take 2 = bitsOf level := by
  simp only [frameHead, List.append_assoc]
  exact List.take_left' (bitsOf_length level)

theorem frameHead_kind (level : BitVec 2) (kind : FrameKind) (originator : NodeAddr) (bytes : Nat) (rest : List Bool) :
    ((frameHead level kind originator bytes ++ rest).drop 2).take 4 = bitsOf kind.number := by
  simp only [frameHead, List.append_assoc]
  rw [List.drop_left' (bitsOf_length level), List.take_left' (bitsOf_length kind.number)]

theorem frameHead_originator (level : BitVec 2) (kind : FrameKind) (originator : NodeAddr) (bytes : Nat) (rest : List Bool) :
    ((frameHead level kind originator bytes ++ rest).drop 6).take 6 = bitsOf originator := by
  have hlength : (bitsOf level ++ bitsOf kind.number).length = 6 := by simp
  simp only [frameHead, List.append_assoc]
  rw [← List.append_assoc, List.drop_left' hlength, List.take_left' (bitsOf_length originator)]

theorem frameHead_bytes (level : BitVec 2) (kind : FrameKind) (originator : NodeAddr) {bytes : Nat} (rest : List Bool)
    (hbytes : bytes < 32) : lengthField (frameHead level kind originator bytes ++ rest) = bytes := by
  have hlength : (bitsOf level ++ bitsOf kind.number ++ bitsOf originator).length = 12 := by simp
  rw [lengthField, frameHead, List.append_assoc, List.drop_left' hlength, List.take_left' (bitsOfNat_length 5 bytes),
    natOfBits_bitsOfNat]
  exact Nat.mod_eq_of_lt hbytes

theorem FrameKind.ofNumber_number (k : FrameKind) : FrameKind.ofNumber k.number.toNat = some k := by
  cases k <;> rfl

theorem FrameKind.length_le (k : FrameKind) : k.length ≤ 17 := by
  cases k <;> decide

/-- R151: the data bits of a lawful frame pass the four tests. -/
theorem judgeFrame_frameData {level : BitVec 2} {kind : FrameKind} (originator : NodeAddr) {payload : List Bool}
    (hpayload : payload.length = 8 * kind.length) (hlevel : kind.allows level.toNat = true) :
    judgeFrame (frameData level kind originator payload) =
      some { level := level.toNat, kind := kind, originator := originator, payload := payload } := by
  obtain ⟨covered, hcovered⟩ : ∃ c, c = frameHead level kind originator kind.length ++ payload := ⟨_, rfl⟩
  have hdata : frameData level kind originator payload = covered ++ bitsOf (crc8 covered) := by
    rw [frameData, hpayload, Nat.mul_div_cancel_left _ (by decide), hcovered]
    rfl
  have hback : (covered ++ bitsOf (crc8 covered)).length - 8 = covered.length := by simp
  have hassoc : covered ++ bitsOf (crc8 covered) = frameHead level kind originator kind.length ++ (payload ++ bitsOf (crc8 covered)) := by
    rw [hcovered, List.append_assoc]
  have hbytes : kind.length < 32 := Nat.lt_of_le_of_lt kind.length_le (by decide)
  have hdrop : covered.drop 17 = payload := by rw [hcovered, List.drop_left' (frameHead_length _ _ _ _)]
  have hlength : lengthField (covered ++ bitsOf (crc8 covered)) = kind.length := by rw [hassoc, frameHead_bytes _ _ _ _ hbytes]
  simp only [judgeFrame, hdata, hback, List.take_left, List.drop_left, natOfBits_bitsOf]
  rw [hlength]
  rw [hassoc, frameHead_level, frameHead_kind, frameHead_originator, natOfBits_bitsOf, natOfBits_bitsOf, natOfBits_bitsOf,
    FrameKind.ofNumber_number]
  simp [hlevel, hdrop]

/-- Settles O45: the spacers come out, the length field ends the frame, and its data bits pass the tests. -/
theorem frameOnTheWireIsReadBack : Obligations.FrameOnTheWireIsReadBack := by
  intro level kind originator payload hpayload hlevel
  have hbytes : kind.length < 32 := Nat.lt_of_le_of_lt kind.length_le (by decide)
  obtain ⟨data, hdata⟩ : ∃ d, d = frameData level kind originator payload := ⟨_, rfl⟩
  have hlength : data.length = 25 + 8 * kind.length := by
    rw [hdata, frameData]
    simp [hpayload]
    omega
  have hfield : lengthField data = kind.length := by
    rw [hdata, frameData, hpayload, Nat.mul_div_cancel_left _ (by decide)]
    show lengthField (frameHead level kind originator kind.length ++ payload ++ _) = _
    rw [List.append_assoc, frameHead_bytes _ _ _ _ hbytes]
  have hend : frameEnd (withSpacers 0 data) = .complete data := by
    have hkind := kind.length_le
    simp only [frameEnd, withoutSpacers_withSpacers data 0 (by decide), hfield]
    rw [if_neg (by omega), if_neg (by omega), if_pos hlength]
  rw [goodFrame, frameWire, List.tail_cons, ← hdata, hend, hdata]
  exact judgeFrame_frameData originator hpayload hlevel

/-! ## Arbitration (R148) -/

/-- Of two lists of one length, the one that spells the lower number has a 0 where they first differ. -/
theorem first_difference {a b : List Bool} (hlength : a.length = b.length) (h : natOfBits a < natOfBits b) :
    ∃ common restA restB, a = common ++ false :: restA ∧ b = common ++ true :: restB := by
  induction a generalizing b with
  | nil =>
    rw [List.length_eq_zero_iff.1 hlength.symm] at h
    exact absurd h (Nat.lt_irrefl _)
  | cons x a ih =>
    cases b with
    | nil => cases hlength
    | cons y b =>
      have htail : a.length = b.length := Nat.succ.inj hlength
      rw [natOfBits_cons, natOfBits_cons, htail] at h
      have hbound := natOfBits_lt b
      by_cases hxy : x = y
      · obtain ⟨common, restA, restB, ha, hb⟩ := ih htail (by rw [hxy] at h; omega)
        exact ⟨y :: common, restA, restB, by rw [ha, hxy]; rfl, by rw [hb]; rfl⟩
      · cases x with
        | false =>
          cases y with
          | false => exact absurd rfl hxy
          | true => exact ⟨[], a, b, rfl, rfl⟩
        | true =>
          cases y with
          | false => simp at h; omega
          | true => exact absurd rfl hxy

/-- R144: what the wire bits are up to a data bit depends on the data bits before it alone, and so does its place. -/
theorem withSpacers_common (common : List Bool) (n : Nat) (hn : n ≤ 8) :
    ∃ before : List Bool, before.length = common.length + (n + common.length) / 8 ∧
      ∀ x rest, ∃ after, withSpacers n (common ++ x :: rest) = before ++ x :: after := by
  induction common generalizing n with
  | nil =>
    rcases Nat.lt_or_eq_of_le hn with hlt | rfl
    · refine ⟨[], by simp; omega, fun x rest => ⟨withSpacers (n + 1) rest, ?_⟩⟩
      exact if_neg (by omega)
    · exact ⟨[true], rfl, fun x rest => ⟨withSpacers 1 rest, rfl⟩⟩
  | cons b common ih =>
    rcases Nat.lt_or_eq_of_le hn with hlt | rfl
    · obtain ⟨before, hlength, hwire⟩ := ih (n + 1) (by omega)
      refine ⟨b :: before, by simp only [List.length_cons, hlength]; omega, fun x rest => ?_⟩
      obtain ⟨after, hafter⟩ := hwire x rest
      refine ⟨after, ?_⟩
      rw [List.cons_append, List.cons_append, ← hafter]
      exact if_neg (by omega)
    · obtain ⟨before, hlength, hwire⟩ := ih 1 (by decide)
      refine ⟨true :: b :: before, by simp only [List.length_cons, hlength]; omega, fun x rest => ?_⟩
      obtain ⟨after, hafter⟩ := hwire x rest
      refine ⟨after, ?_⟩
      rw [List.cons_append, List.cons_append, List.cons_append, ← hafter]
      exact if_pos rfl

/-- R144, R148: the header of a frame: level, kind and originator. -/
theorem frameData_header (level : BitVec 2) (kind : FrameKind) (originator : NodeAddr) (payload : List Bool) :
    ∃ rest, frameData level kind originator payload = (bitsOf level ++ bitsOf kind.number ++ bitsOf originator) ++ rest :=
  ⟨_, by simp only [frameData, List.append_assoc]; rfl⟩

theorem natOfBits_header (level : BitVec 2) (kind : FrameKind) (originator : NodeAddr) :
    natOfBits (bitsOf level ++ bitsOf kind.number ++ bitsOf originator) =
      level.toNat * 1024 + kind.number.toNat * 64 + originator.toNat := by
  rw [natOfBits_append, natOfBits_append, natOfBits_bitsOf, natOfBits_bitsOf, natOfBits_bitsOf, bitsOf_length, bitsOf_length]
  omega

/-- Settles O48: the headers first differ at a bit that the lower drives dominant. -/
theorem lowerHeaderWins : Obligations.LowerHeaderWins := by
  intro la lb ka kb oa ob pa pb h
  rw [← natOfBits_header, ← natOfBits_header] at h
  obtain ⟨common, headA, headB, ha, hb⟩ := first_difference (by simp) h
  obtain ⟨restA, hdataA⟩ := frameData_header la ka oa pa
  obtain ⟨restB, hdataB⟩ := frameData_header lb kb ob pb
  obtain ⟨before, hlength, hwire⟩ := withSpacers_common common 0 (by decide)
  obtain ⟨afterA, hwireA⟩ := hwire false (headA ++ restA)
  obtain ⟨afterB, hwireB⟩ := hwire true (headB ++ restB)
  have hshort : common.length < 12 := by
    have := congrArg List.length ha
    simp at this
    omega
  have hA : frameWire la ka oa pa = (false :: before) ++ false :: afterA := by
    rw [frameWire, hdataA, ha, List.append_assoc, List.cons_append, hwireA]
    rfl
  have hB : frameWire lb kb ob pb = (false :: before) ++ true :: afterB := by
    rw [frameWire, hdataB, hb, List.append_assoc, List.cons_append, hwireB]
    rfl
  refine ⟨(false :: before).length, ?_, ?_, ?_, fun j hj => ?_⟩
  · simp only [isHeaderPosition, List.length_cons, hlength, Bool.and_eq_true, decide_eq_true_eq]
    omega
  · rw [hA, List.getElem?_append_right (Nat.le_refl _), Nat.sub_self]
    rfl
  · rw [hB, List.getElem?_append_right (Nat.le_refl _), Nat.sub_self]
    rfl
  · rw [hA, hB, List.getElem?_append_left hj, List.getElem?_append_left hj]

end Sys2Proof.Machine
end


/-! # The handset line and its runs (R35, R36, R176) -/

section
namespace Sys2Proof.Machine

open Sys2Proof.Safety

/-- The line is read from one place to another without a character. -/
inductive ReadsOn : LineReader → List Bool → LineReader → Prop where
  | done (x : LineReader) : ReadsOn x [] x
  | bit {x y z : LineReader} {level : Bool} {levels : List Bool} (hread : x.read level = (z, none)) (hrest : ReadsOn z levels y) :
      ReadsOn x (level :: levels) y

theorem ReadsOn.append {x y z : LineReader} {a b : List Bool} (ha : ReadsOn x a y) (hb : ReadsOn y b z) : ReadsOn x (a ++ b) z := by
  induction ha with
  | done x => exact hb
  | bit hread _ ih => exact .bit hread (ih hb)

theorem readsOn_idle (n : Nat) : ReadsOn .mark (List.replicate n true) .mark := by
  induction n with
  | zero => exact .done _
  | succ n ih => exact .bit rfl ih

theorem readsOn_low (n : Nat) : ReadsOn .space (List.replicate n false) .space := by
  induction n with
  | zero => exact .done _
  | succ n ih => exact .bit rfl ih

/-- R36: data bits are gathered up to the eighth. -/
theorem readsOn_data (bits : List Bool) (before : List Bool) (h : before.length + bits.length ≤ 8) :
    ReadsOn (.data before) bits (.data (before ++ bits)) := by
  induction bits generalizing before with
  | nil =>
    rw [List.append_nil]
    exact .done _
  | cons b bits ih =>
    rw [List.length_cons] at h
    have hrest := ih (before ++ [b]) (by simp; omega)
    rw [List.append_assoc] at hrest
    refine .bit ?_ hrest
    exact if_pos (by omega)

/-- R176: where the receiver stands after a character. -/
def SerialChar.leaves (c : SerialChar) : LineReader := if c.stopOk then .mark else .space

theorem SerialChar.leaves_framed {c : SerialChar} (h : c.stopOk = true) : c.leaves = .mark := if_pos h

/-- R36: a mark that follows a character, well framed or not. -/
theorem readsOn_leaves (c : SerialChar) (n : Nat) : ∃ y, ReadsOn c.leaves (List.replicate n true) y := by
  unfold SerialChar.leaves
  split
  · exact ⟨_, readsOn_idle n⟩
  · cases n with
    | zero => exact ⟨_, .done _⟩
    | succ n => exact ⟨_, .bit rfl (readsOn_idle n)⟩

/-- R176: a character but for its stop bit. -/
def SerialChar.opening (c : SerialChar) : List Bool := false :: (bitsOf c.data).reverse

theorem SerialChar.opening_length (c : SerialChar) : c.opening.length = 9 := by simp [SerialChar.opening]

theorem SerialChar.levels_eq (c : SerialChar) : c.levels = c.opening ++ [c.stopOk] := rfl

theorem readsOn_opening (c : SerialChar) : ReadsOn .mark c.opening (.data (bitsOf c.data).reverse) :=
  .bit rfl (readsOn_data _ [] (by simp))

/-- R176: the stop bit completes the character. -/
theorem read_stop (c : SerialChar) : LineReader.read (.data (bitsOf c.data).reverse) c.stopOk = (c.leaves, some c) := by
  have hdata : BitVec.ofNat 8 (natOfBits (bitsOf c.data)) = c.data := by
    rw [natOfBits_bitsOf, BitVec.ofNat_toNat, BitVec.setWidth_eq]
  simp [LineReader.read, hdata, SerialChar.leaves]

/-! ## What a stretch of levels does to the open run -/

/-- No run is open: none opens without a character. -/
theorem gather_none {x y : LineReader} {levels : List Bool} (h : ReadsOn x levels y) :
    levels.foldl RunGatherer.read { reader := x, run := none, closed := none } = { reader := y, run := none, closed := none } := by
  induction h with
  | done x => rfl
  | bit hread _ ih =>
    rw [List.foldl_cons, RunGatherer.read, hread]
    exact ih

/-- R36: a bit time without a character in an open run. -/
theorem read_quiet {x z : LineReader} {level : Bool} (h : x.read level = (z, none)) (r : OpenRun) (a : Option ClosedRun) :
    RunGatherer.read { reader := x, run := some r, closed := a } level =
      if r.quiet + 1 < 15 then { reader := z, run := some (r.next none), closed := none }
      else { reader := z, run := none, closed := some { chars := r.chars, bits := r.bits + 1 } } := by
  rw [RunGatherer.read, h]
  rfl

/-- R36: an open run goes on while fewer than 15 bit times pass without a character. -/
theorem gather_open {x y : LineReader} {levels : List Bool} (h : ReadsOn x levels y) (r : OpenRun)
    (hquiet : r.quiet + levels.length < 15) :
    levels.foldl RunGatherer.read { reader := x, run := some r, closed := none } =
      { reader := y, run := some { r with bits := r.bits + levels.length, quiet := r.quiet + levels.length }, closed := none } := by
  induction h generalizing r with
  | done x => rfl
  | bit hread _ ih =>
    rw [List.length_cons] at hquiet
    rw [List.foldl_cons, read_quiet hread, if_pos (by omega), ih (r.next none) (by simp only [OpenRun.next]; omega)]
    simp only [OpenRun.next, List.length_cons]
    congr 3 <;> omega

/-- R36: the run closes at the fifteenth bit time without a character, and is not told again. -/
theorem gather_close {x y : LineReader} {levels : List Bool} (h : ReadsOn x levels y) (r : OpenRun) (hopen : r.quiet < 15)
    (hquiet : 15 ≤ r.quiet + levels.length) :
    levels.foldl RunGatherer.read { reader := x, run := some r, closed := none } =
      { reader := y, run := none,
        closed := if r.quiet + levels.length = 15 then some { chars := r.chars, bits := r.bits + levels.length } else none } := by
  induction h generalizing r with
  | done x => exact absurd hquiet (by simp only [List.length_nil]; omega)
  | @bit x y z level levels hread hrest ih =>
    rw [List.length_cons] at hquiet
    rw [List.foldl_cons, read_quiet hread]
    by_cases hend : r.quiet + 1 < 15
    · have hsum : (r.next none).quiet + levels.length = r.quiet + (level :: levels).length := by
        simp only [OpenRun.next, List.length_cons]
        omega
      have hbits : (r.next none).bits + levels.length = r.bits + (level :: levels).length := by
        simp only [OpenRun.next, List.length_cons]
        omega
      rw [if_pos hend, ih (r.next none) hend (by rw [hsum]; exact hquiet), hsum, hbits]
      rfl
    · have hlast : r.quiet = 14 := by omega
      rw [if_neg hend, hlast]
      cases hrest with
      | done z => rfl
      | bit hread' hrest' =>
        rw [List.foldl_cons, RunGatherer.read, hread', if_neg (by simp only [List.length_cons]; omega)]
        exact gather_none hrest'

/-- R36: with no run open a character opens one. -/
theorem gather_first (c : SerialChar) :
    c.levels.foldl RunGatherer.read { reader := .mark, run := none, closed := none } =
      { reader := c.leaves, run := some (.first c), closed := none } := by
  rw [SerialChar.levels_eq, List.foldl_append, gather_none (readsOn_opening c), List.foldl_cons, List.foldl_nil, RunGatherer.read,
    read_stop]
  rfl

/-- R36: a character that follows by 4 bit times of mark or less joins the run. -/
theorem gather_joins (c : SerialChar) (r : OpenRun) (hquiet : r.quiet ≤ 4) :
    c.levels.foldl RunGatherer.read { reader := .mark, run := some r, closed := none } =
      { reader := c.leaves, run := some { chars := r.chars ++ [c], bits := r.bits + 10, quiet := 0 }, closed := none } := by
  have hlength := c.opening_length
  rw [SerialChar.levels_eq, List.foldl_append, gather_open (readsOn_opening c) r (by omega), List.foldl_cons, List.foldl_nil,
    RunGatherer.read, read_stop, hlength]
  exact if_pos (show r.quiet + 9 + 1 < 15 by omega)

/-- R36: a character that follows by 5 bit times or more opens the next run. -/
theorem gather_next (c : SerialChar) (r : OpenRun) (hlow : 5 ≤ r.quiet) (hhigh : r.quiet < 15) :
    ∃ closed, c.levels.foldl RunGatherer.read { reader := .mark, run := some r, closed := none } =
      { reader := c.leaves, run := some (.first c), closed := closed } := by
  have hlength := c.opening_length
  rw [SerialChar.levels_eq, List.foldl_append, List.foldl_cons, List.foldl_nil]
  by_cases hopen : r.quiet + 9 < 15
  · rw [gather_open (readsOn_opening c) r (by omega), RunGatherer.read, read_stop, hlength]
    exact ⟨_, if_neg (show ¬r.quiet + 9 + 1 < 15 by omega)⟩
  · rw [gather_close (readsOn_opening c) r hhigh (by omega), RunGatherer.read, read_stop]
    exact ⟨_, rfl⟩

/-- What closed at the bit time before leaves no trace. -/
theorem gather_closed_irrelevant {levels : List Bool} (hne : levels ≠ []) (x : LineReader) (run : Option OpenRun)
    (a : Option ClosedRun) :
    levels.foldl RunGatherer.read { reader := x, run := run, closed := a } =
      levels.foldl RunGatherer.read { reader := x, run := run, closed := none } := by
  cases levels with
  | nil => exact absurd rfl hne
  | cons level levels => rfl

/-- R36: well-framed characters without a gap join the run. -/
theorem gather_framed (cs : List SerialChar) (hframed : ∀ c ∈ cs, c.stopOk = true) (r : OpenRun) (hquiet : r.quiet ≤ 4) :
    (cs.flatMap SerialChar.levels).foldl RunGatherer.read { reader := .mark, run := some r, closed := none } =
      { reader := .mark, run := some { chars := r.chars ++ cs, bits := r.bits + 10 * cs.length,
                                       quiet := if cs = [] then r.quiet else 0 }, closed := none } := by
  induction cs generalizing r with
  | nil => simp
  | cons c cs ih =>
    have hrest := ih (fun x hx => hframed x (List.mem_cons_of_mem _ hx)) { chars := r.chars ++ [c], bits := r.bits + 10, quiet := 0 }
      (Nat.zero_le _)
    rw [List.flatMap_cons, List.foldl_append, gather_joins c r hquiet, SerialChar.leaves_framed (hframed c List.mem_cons_self), hrest,
      List.append_assoc, List.length_cons, ite_self, if_neg (List.cons_ne_nil _ _)]
    congr 3
    show r.bits + 10 + _ = _
    omega

/-- The run that characters make. -/
def runOf (cs : List SerialChar) : OpenRun := { chars := cs, bits := 10 * cs.length, quiet := 0 }

/-- R36: with no run open, characters without a gap, the last one framed or not, make one run. -/
theorem gather_chars (cs : List SerialChar) (last : SerialChar) (hframed : ∀ c ∈ cs, c.stopOk = true) :
    ((cs ++ [last]).flatMap SerialChar.levels).foldl RunGatherer.read { reader := .mark, run := none, closed := none } =
      { reader := last.leaves, run := some (runOf (cs ++ [last])), closed := none } := by
  rw [List.flatMap_append, List.flatMap_singleton, List.foldl_append]
  cases cs with
  | nil => exact gather_first last
  | cons c cs =>
    have hfirst := gather_framed cs (fun x hx => hframed x (List.mem_cons_of_mem _ hx)) (.first c) (Nat.zero_le _)
    rw [List.flatMap_cons, List.foldl_append, gather_first, SerialChar.leaves_framed (hframed c List.mem_cons_self), hfirst,
      gather_joins last _ (by show (if cs = [] then 0 else 0) ≤ 4; rw [ite_self]; decide)]
    congr 2
    simp [runOf, OpenRun.first]
    show 10 + _ + 10 = _
    omega

theorem closedRun_mark (levels : List Bool) :
    closedRun (true :: levels) = (levels.foldl RunGatherer.read { reader := .mark, run := none, closed := none }).closed := rfl

/-- R36: a run closes 15 bit times after its last character, and then only. -/
theorem closedRun_idle (cs : List SerialChar) (n : Nat) (hne : cs ≠ []) (hframed : ∀ c ∈ cs.dropLast, c.stopOk = true) :
    closedRun (true :: cs.flatMap SerialChar.levels ++ List.replicate n true) =
      if n = 15 then some { chars := cs, bits := 10 * cs.length + 15 } else none := by
  obtain ⟨init, last, rfl⟩ : ∃ init last, cs = init ++ [last] := ⟨_, _, (List.dropLast_append_getLast hne).symm⟩
  rw [List.dropLast_concat] at hframed
  obtain ⟨y, hread⟩ := readsOn_leaves last n
  rw [List.cons_append, closedRun_mark, List.foldl_append, gather_chars init last hframed]
  by_cases hn : n < 15
  · rw [gather_open hread _ (by simpa [runOf] using hn), if_neg (by omega)]
  · rw [gather_close hread _ (by simp [runOf]) (by simp [runOf]; omega)]
    by_cases h15 : n = 15
    · subst h15
      rfl
    · rw [if_neg h15]
      exact if_neg (by simpa [runOf] using h15)

/-- R36: characters after a gap: up to 4 bit times join the run, and more open the next. -/
theorem gather_after_gap (cs : List SerialChar) (r : OpenRun) (gap : Nat) (hne : cs ≠ []) (hframed : ∀ c ∈ cs, c.stopOk = true)
    (hquiet : r.quiet = 0) :
    ∃ closed, (List.replicate gap true ++ cs.flatMap SerialChar.levels).foldl RunGatherer.read
        { reader := .mark, run := some r, closed := none } =
      { reader := .mark, run := some (if gap ≤ 4 then { chars := r.chars ++ cs, bits := r.bits + gap + 10 * cs.length, quiet := 0 }
                                      else runOf cs), closed := closed } := by
  rw [List.foldl_append]
  by_cases hshort : gap ≤ 4
  · rw [gather_open (readsOn_idle gap) r (by simp; omega), gather_framed cs hframed _ (by simp; omega), if_pos hshort,
      if_neg hne]
    exact ⟨none, by simp⟩
  · obtain ⟨c, rest, rfl⟩ := List.exists_cons_of_ne_nil hne
    have hc := SerialChar.leaves_framed (hframed c List.mem_cons_self)
    have hopens : ∃ closed, (c.levels.foldl RunGatherer.read ((List.replicate gap true).foldl RunGatherer.read
        { reader := .mark, run := some r, closed := none })) = { reader := .mark, run := some (.first c), closed := closed } := by
      by_cases hopen : gap < 15
      · obtain ⟨closed, h⟩ := gather_next c { r with bits := r.bits + gap, quiet := r.quiet + gap } (by simp; omega) (by simp; omega)
        rw [gather_open (readsOn_idle gap) r (by simp; omega), List.length_replicate, h, hc]
        exact ⟨closed, rfl⟩
      · rw [gather_close (readsOn_idle gap) r (by omega) (by simp; omega),
          gather_closed_irrelevant (by simp [SerialChar.levels_eq, SerialChar.opening]), gather_first, hc]
        exact ⟨none, rfl⟩
    obtain ⟨closed, hopens⟩ := hopens
    have hrest := gather_framed rest (fun x hx => hframed x (List.mem_cons_of_mem _ hx)) (.first c) (Nat.zero_le _)
    rw [List.flatMap_cons, List.foldl_append, hopens, if_neg hshort]
    cases rest with
    | nil => exact ⟨closed, rfl⟩
    | cons d rest =>
      rw [gather_closed_irrelevant (by simp [SerialChar.levels_eq, SerialChar.opening]), hrest]
      refine ⟨none, ?_⟩
      congr 2
      simp only [runOf, OpenRun.first, if_neg (List.cons_ne_nil _ _), List.length_cons]
      congr 1
      show 10 + _ = _
      omega

/-! ## The frame of a run (R176) -/

/-- R176: the gesture of two bits, in words of the bits. -/
theorem Gesture.ofBits_eq (x : BitVec 2) : Gesture.ofBits x = if x.getLsbD 1 then (if x.getLsbD 0 then .release else .bindKept)
    else (if x.getLsbD 0 then .bind else .none) := by
  revert x
  decide

/-- R36, R176: a run is a frame exactly when its five characters pass the tests. -/
theorem handsetFrameOf_iff (chars : List SerialChar) (f : HandsetFrame) : handsetFrameOf chars = some f ↔
    ∃ a b c d e : Byte, chars = [⟨a, true⟩, ⟨b, true⟩, ⟨c, true⟩, ⟨d, true⟩, ⟨e, true⟩] ∧ e = ~~~(a ^^^ b ^^^ c ^^^ d) ∧
      f.address = a ++ b ∧ f.address ≠ 0 ∧ f.address ≠ 65535 ∧
      f.pressCount = c.extractLsb' 4 4 ∧ f.pressDir = (if c.getLsbD 3 then .right else .left) ∧
      f.gesture = (if c.getLsbD 2 then (if c.getLsbD 1 then .release else .bindKept)
        else (if c.getLsbD 1 then .bind else .none)) ∧
      f.programCount = d.extractLsb' 6 2 ∧ f.programDir = (if d.getLsbD 5 then .right else .left) ∧
      f.programValue = (d.extractLsb' 2 3).toNat := by
  have hgesture : ∀ c : Byte, Gesture.ofBits (c.extractLsb' 1 2) = (if c.getLsbD 2 then (if c.getLsbD 1 then .release else .bindKept)
      else (if c.getLsbD 1 then .bind else .none)) := by
    intro c
    rw [Gesture.ofBits_eq, BitVec.getLsbD_extractLsb', BitVec.getLsbD_extractLsb']
    rfl
  constructor
  · intro h
    unfold handsetFrameOf at h
    split at h
    · next a b c d e =>
      simp only at h
      split at h
      · next htests =>
        obtain rfl := Option.some.inj h
        simp only [Bool.and_eq_true, decide_eq_true_eq] at htests
        obtain ⟨⟨⟨⟨⟨⟨⟨ha, hb⟩, hc⟩, hd⟩, he⟩, hcheck⟩, hzero⟩, hall⟩ := htests
        refine ⟨a.data, b.data, c.data, d.data, e.data, ?_, hcheck, rfl, hzero, hall, rfl, rfl, hgesture c.data, rfl, rfl, rfl⟩
        cases a; cases b; cases c; cases d; cases e
        simp_all
      · cases h
    · cases h
  · rintro ⟨a, b, c, d, e, rfl, rfl, haddress, hzero, hall, hpress, hpressDir, hges, hprogram, hprogramDir, hvalue⟩
    rw [haddress] at hzero hall
    have hz : a ++ b ≠ 0#16 := hzero
    have ha : a ++ b ≠ 65535#16 := hall
    obtain ⟨address, pressCount, pressDir, gesture, programCount, programDir, programValue⟩ := f
    simp only at haddress hpress hpressDir hges hprogram hprogramDir hvalue
    rw [← hgesture] at hges
    simp [handsetFrameOf, hz, ha, haddress, hpress, hpressDir, hges, hprogram, hprogramDir, hvalue, Dir.ofBit]

@[simp] theorem exec_handsetFrame (levels : List Bool) (span : Nat) (s : State) :
    exec (.handsetFrame levels span) s = .next (handsetFrame levels span s) := rfl

/-- R35, R36: what a frame needs: the port on, and a run that was heard whole and spells it. -/
theorem handsetFrame_unheard {levels : List Bool} {span : Nat} {s : State}
    (h : ∀ f r, s.node.live = true → closedRun levels = some r → r.spans span = true → runHeardWhole s span = true →
      handsetFrameOf r.chars ≠ some f) : handsetFrame levels span s = s := by
  unfold handsetFrame
  split
  · next r hr =>
    split
    · next htests =>
      simp only [Bool.and_eq_true] at htests
      obtain ⟨⟨hlive, hspans⟩, hwhole⟩ := htests
      unfold runCloses
      split
      · next f hf => exact absurd hf (h f r hlive hr hspans hwhole)
      · rfl
    · rfl
  · rfl

theorem handsetFrame_heard {levels : List Bool} {span : Nat} {s : State} {f : HandsetFrame} (h : frameHeard s levels span f) :
    handsetFrame levels span s = acceptFrame s f := by
  obtain ⟨hlive, r, hr, hspans, hwhole, hf⟩ := h
  simp [handsetFrame, hr, hlive, hspans, hwhole, runCloses, hf]

/-- Settles O24: the gathering clauses follow a stretch of levels at a time, and the tests are those of the frame. -/
theorem handsetRunIsTested : Obligations.HandsetRunIsTested := by
  unfold Obligations.HandsetRunIsTested
  intro line idle framed
  refine ⟨fun c => ?_, fun cs n hne hframed => closedRun_idle cs n hne hframed, fun as bs gap has hbs hfa hfb => ?_,
    fun a b n hn => ?_, fun n levels => ?_, handsetFrameOf_iff, fun levels span s h => ?_⟩
  · rw [SerialChar.levels, bitsOf_eq_map_getLsbD]
    rfl
  · obtain ⟨init, last, rfl⟩ : ∃ init last, as = init ++ [last] := ⟨_, _, (List.dropLast_append_getLast has).symm⟩
    have hinit : ∀ c ∈ init, c.stopOk = true := fun c hc => hfa c (List.mem_append_left _ hc)
    have hlast : last.leaves = .mark := SerialChar.leaves_framed (hfa last (List.mem_append_right _ List.mem_cons_self))
    obtain ⟨closed, hgap⟩ := gather_after_gap bs (runOf (init ++ [last])) gap hbs hfb rfl
    show closedRun (true :: ((init ++ [last]).flatMap SerialChar.levels) ++ List.replicate gap true ++ bs.flatMap SerialChar.levels ++
      List.replicate 15 true) = _
    rw [List.append_assoc (true :: _), List.cons_append, List.cons_append, closedRun_mark, List.append_assoc, List.foldl_append,
      gather_chars init last hinit, hlast, List.foldl_append, hgap, gather_closed_irrelevant (by simp)]
    split
    · rw [gather_close (readsOn_idle 15) _ (by simp) (by simp)]
      rfl
    · rw [gather_close (readsOn_idle 15) _ (by simp [runOf]) (by simp [runOf])]
      rfl
  · have hlow : ReadsOn .space (List.replicate n false ++ [true]) .mark := (readsOn_low n).append (.bit rfl (.done _))
    show closedRun (true :: SerialChar.levels ⟨a, false⟩ ++ List.replicate n false ++ true :: SerialChar.levels ⟨b, true⟩ ++
      List.replicate 15 true) = _
    have hsplit : true :: SerialChar.levels ⟨a, false⟩ ++ List.replicate n false ++ true :: SerialChar.levels ⟨b, true⟩ ++
        List.replicate 15 true = true :: (SerialChar.levels ⟨a, false⟩ ++ ((List.replicate n false ++ [true]) ++
          (SerialChar.levels ⟨b, true⟩ ++ List.replicate 15 true))) := by
      simp
    rw [hsplit, closedRun_mark, List.foldl_append, gather_first, List.foldl_append]
    have hleaves : SerialChar.leaves ⟨a, false⟩ = .space := rfl
    rw [hleaves, gather_open hlow (.first _) (by simp [OpenRun.first]; omega), List.foldl_append,
      gather_joins _ _ (by simp [OpenRun.first]; omega), SerialChar.leaves_framed rfl,
      gather_close (readsOn_idle 15) _ (by simp) (by simp)]
    simp [OpenRun.first, Config.charBits]
    omega
  · have hquiet := gather_none (readsOn_low n)
    rw [closedRun, List.foldl_append, hquiet]
    rfl
  · rw [exec_handsetFrame]
    refine congrArg _ (handsetFrame_unheard fun f r hlive hr hspans hwhole hf => ?_)
    rcases h with hnone | ⟨r', hr', hbad⟩ | ⟨t, ht, hlate⟩ | hoff
    · rw [hnone] at hr
      cases hr
    · obtain rfl : r' = r := Option.some.inj (hr'.symm.trans hr)
      rcases hbad with hnone | ⟨hdown, hup⟩
      · rw [hnone] at hf
        cases hf
      · simp [ClosedRun.spans, hdown, hup] at hspans
    · simp only [runHeardWhole, ht, decide_eq_true_eq] at hwhole
      omega
    · cases hn : s.node <;> simp_all [NodeState.live]

end Sys2Proof.Machine
end


/-! # The handset table (R38 to R46) -/

section
namespace Sys2Proof.Machine

open Sys2Proof.Safety

/-! ## The reset state -/

/-- Settles O5: at reset the collections are empty, no car is bound, and every gate, blade and slot is at rest in LOAD. -/
theorem resetMeetsTheInvariants : Obligations.ResetMeetsTheInvariants := by
  have hfree : ∀ c, State.reset.bind.entries.get c = Binding.fresh := CodeTable.get_const Binding.fresh
  have hslot : ∀ l, State.reset.grants.slots.get l = none ∧ State.reset.blades.get l = Blade.absent ∧
      State.reset.gates.get l = Gate.off := fun l => by cases l <;> exact ⟨rfl, rfl, rfl⟩
  refine ⟨?collections, ?times, ?lists, ?bindings, ?blades, ?line, ?gates⟩
  case collections => exact ⟨by decide, by decide, by decide, by decide, by decide, fun _ _ => Nat.zero_le _, fun _ _ => Nat.zero_le _⟩
  case times => exact ⟨fun r hr => absurd hr List.not_mem_nil, fun r hr => absurd hr List.not_mem_nil, fun r h => by rcases h with h | h <;> cases h⟩
  case lists => exact ⟨.nil, .nil⟩
  case bindings =>
    refine ⟨fun c d h hc _ => ?_, fun c => ?_⟩
    · rw [hfree] at hc
      cases hc
    · rw [hfree]
      exact ⟨fun _ => rfl, nofun⟩
  case blades =>
    refine ⟨fun _ => rfl, fun l => ?_, fun f hf => absurd hf List.not_mem_nil⟩
    obtain ⟨hfreeSlot, hblade, _⟩ := hslot l
    unfold bladeKept
    rw [hfreeSlot, hblade]
    refine ⟨fun _ => ⟨rfl, nofun, nofun⟩, ⟨fun h => ?_, nofun⟩, nofun, ⟨nofun, fun h => ?_⟩, fun h => ?_⟩
    · rcases h with h | h <;> cases h
    · rcases h with h | ⟨_, h⟩ <;> cases h
    · rcases h with h | h <;> cases h
  case line =>
    have hempty : ∀ f ∈ State.reset.line.queue, False := fun f hf => absurd hf List.not_mem_nil
    refine ⟨fun _ => ⟨rfl, fun _ h => by cases h⟩, fun h => (by cases h), by decide, by decide, List.Pairwise.nil,
      fun f hf => (hempty f hf).elim, List.Pairwise.nil, fun f hf => (hempty f hf).elim, fun f hf => (hempty f hf).elim⟩
  case gates =>
    intro l
    rw [(hslot l).2.2]
    exact ⟨fun _ => rfl, nofun, nofun, nofun⟩

/-! ## The earliest element -/

/-- The element found so far is the earliest of those seen, and of equals the first. -/
theorem earliestFrom_spec {α β : Type} [LinearOrder β] {isBefore : α → α → Bool} {key : α → β} (rest : List α) (seen : List α)
    (best : α) (place : Nat) (hkey : ∀ a ∈ seen ++ rest, ∀ b ∈ seen ++ rest, isBefore a b = true ↔ key a < key b)
    (hbest : seen[place]? = some best) (hleast : ∀ x ∈ seen, key best ≤ key x) (hfirst : ∀ x ∈ seen.take place, key best < key x) :
    ∃ v, (seen ++ rest)[earliestFrom isBefore best place seen.length rest]? = some v ∧ (∀ x ∈ seen ++ rest, key v ≤ key x) ∧
      ∀ x ∈ (seen ++ rest).take (earliestFrom isBefore best place seen.length rest), key v < key x := by
  induction rest generalizing seen best place with
  | nil =>
    simp only [List.append_nil]
    exact ⟨best, hbest, hleast, hfirst⟩
  | cons y rest ih =>
    obtain ⟨hplace, hget⟩ := List.getElem?_eq_some_iff.1 hbest
    have hmem : best ∈ seen := hget ▸ List.getElem_mem hplace
    have hassoc : seen ++ y :: rest = (seen ++ [y]) ++ rest := by simp
    have hlength : (seen ++ [y]).length = seen.length + 1 := by simp
    have hcompare := hkey y (by simp) best (List.mem_append_left _ hmem)
    rw [hassoc] at hkey
    rw [earliestFrom, hassoc, ← hlength]
    split
    · next hy =>
      have hlt : key y < key best := hcompare.1 hy
      refine ih (seen ++ [y]) y seen.length hkey (by simp) (fun x hx => ?_) (fun x hx => ?_)
      · rcases List.mem_append.1 hx with hx | hx
        · exact (hlt.le).trans (hleast x hx)
        · rw [List.mem_singleton.1 hx]
      · rw [List.take_left] at hx
        exact hlt.trans_le (hleast x hx)
    · next hy =>
      have hle : key best ≤ key y := not_lt.1 (fun h => hy (hcompare.2 h))
      refine ih (seen ++ [y]) best place hkey (by rw [List.getElem?_append_left hplace, hbest]) (fun x hx => ?_) (fun x hx => ?_)
      · rcases List.mem_append.1 hx with hx | hx
        · exact hleast x hx
        · rw [List.mem_singleton.1 hx]
          exact hle
      · rw [List.take_append_of_le_length (by omega)] at hx
        exact hfirst x hx

/-- Under the order of a key the earliest element has the least key, and of equals it is the first. -/
theorem earliest_spec {α β : Type} [LinearOrder β] {isBefore : α → α → Bool} {key : α → β} {xs : List α} (hne : xs ≠ [])
    (hkey : ∀ a ∈ xs, ∀ b ∈ xs, isBefore a b = true ↔ key a < key b) :
    ∃ v, xs[earliest isBefore xs]? = some v ∧ (∀ x ∈ xs, key v ≤ key x) ∧ ∀ x ∈ xs.take (earliest isBefore xs), key v < key x := by
  cases xs with
  | nil => exact absurd rfl hne
  | cons y ys => exact earliestFrom_spec ys [y] y 0 hkey rfl (by simp) (by simp)

/-! ## First sightings (R38) -/

/-- R38: the key of an eviction: the age of an entry, and then its address. -/
def evictionKey (now : Time) (e : HandsetEntry) : Int ×ₗ Nat := toLex (-Time.diff e.lastHeard now, e.address.toNat)

theorem evictedBefore_iff (now : Time) (a b : HandsetEntry) :
    evictedBefore now a b = true ↔ evictionKey now a < evictionKey now b := by
  simp only [evictedBefore, evictionKey, Prod.Lex.toLex_lt_toLex, Bool.or_eq_true, Bool.and_eq_true, decide_eq_true_eq, neg_lt_neg_iff,
    neg_inj]
  exact or_congr Iff.rfl (and_congr eq_comm Iff.rfl)

theorem isBound_eq_false {s : State} {h : HandsetAddr} : isBound s h = false ↔ ∀ c, (s.bind.entries.get c).handset ≠ some h := by
  simp [isBound, boundCar, Car.mem_all]

/-- R38: the entry evicted from a table that holds an unbound one. -/
theorem evictedHandset_spec {s : State} (h : ∃ x ∈ s.handsets, ∀ c, (s.bind.entries.get c).handset ≠ some x.address) :
    ∃ v, evictedHandset s = some v ∧ v ∈ s.handsets ∧ (∀ c, (s.bind.entries.get c).handset ≠ some v.address) ∧
      ∀ x ∈ s.handsets, (∀ c, (s.bind.entries.get c).handset ≠ some x.address) →
        Time.diff x.lastHeard s.now < Time.diff v.lastHeard s.now ∨
        (Time.diff x.lastHeard s.now = Time.diff v.lastHeard s.now ∧ v.address.toNat ≤ x.address.toNat) := by
  have hmem : ∀ x, x ∈ s.handsets.filter (fun e => !isBound s e.address) ↔
      x ∈ s.handsets ∧ ∀ c, (s.bind.entries.get c).handset ≠ some x.address := by
    intro x
    rw [List.mem_filter, Bool.not_eq_true', isBound_eq_false]
  obtain ⟨x, hx⟩ := h
  obtain ⟨v, hv, hleast, _⟩ := earliest_spec (List.ne_nil_of_mem ((hmem x).2 hx)) (fun a _ b _ => evictedBefore_iff s.now a b)
  obtain ⟨hvmem, hvfree⟩ := (hmem v).1 (List.mem_of_getElem? hv)
  refine ⟨v, hv, hvmem, hvfree, fun y hy hyfree => ?_⟩
  have hle := hleast y ((hmem y).2 ⟨hy, hyfree⟩)
  simp only [evictionKey, Prod.Lex.toLex_le_toLex] at hle
  omega

theorem firstEntry_gesturing (f : HandsetFrame) (now : Time) : (f.firstEntry now).gesturing = decide (f.gesture ≠ .none) := by
  cases hg : f.gesture <;> simp [HandsetFrame.firstEntry, HandsetEntry.gesturing, HandsetEntry.freshGesture, hg]

theorem handsetEntry_eq_none {s : State} {a : HandsetAddr} : handsetEntry s a = none ↔ ∀ x ∈ s.handsets, x.address ≠ a := by
  simp [handsetEntry]

theorem removeHandset_eq (s : State) (e : HandsetEntry) :
    removeHandset s e = if e.freshGesture = .none then s.dropHandset e.address else judgeLocal (s.dropHandset e.address) := by
  unfold removeHandset HandsetEntry.gesturing
  by_cases h : e.freshGesture = .none <;> simp [h]

/-- R38: what a first sighting makes, once there is room. -/
theorem firstSighting_eq {s t : State} {f : HandsetFrame} (hroom : makeHandsetRoom s = some t) (hnow : t.now = s.now) :
    firstSighting s f = if f.gesture = .none then { t with handsets := t.handsets ++ [f.firstEntry t.now] }
      else judgeLocal { t with handsets := t.handsets ++ [f.firstEntry t.now] } := by
  simp only [firstSighting, hroom, firstEntry_gesturing, hnow]
  by_cases h : f.gesture = .none <;> simp [h]

/-- Settles O25: the room is the state as it stands, or what the eviction leaves. -/
theorem firstSightingEntersTheHandset : Obligations.FirstSightingEntersTheHandset := by
  unfold Obligations.FirstSightingEntersTheHandset
  intro entered
  have hentered : ∀ {levels span} {s t : State} {f}, frameHeard s levels span f → (∀ x ∈ s.handsets, x.address ≠ f.address) →
      makeHandsetRoom s = some t → t.now = s.now → exec (.handsetFrame levels span) s = .next (entered t f) := by
    intro levels span s t f hheard hnew hroom hnow
    rw [exec_handsetFrame, handsetFrame_heard hheard, acceptFrame, handsetEntry_eq_none.2 hnew]
    exact congrArg _ (firstSighting_eq hroom hnow)
  refine ⟨fun levels span s f hheard hnew hlt => ?_, fun levels span s f hheard hnew hfull hunbound => ?_⟩
  · exact hentered hheard hnew (if_pos hlt) rfl
  · obtain ⟨v, hv, hmem, hfree, hleast⟩ := evictedHandset_spec hunbound
    refine ⟨v, hmem, hfree, hleast, ?_⟩
    intro w
    have hroom : makeHandsetRoom s = some (removeHandset s v) := by
      rw [makeHandsetRoom, if_neg (by show ¬_ < 16; omega), hv]
      rfl
    obtain ⟨_, _, _, _, _, _, _, hframe⟩ := removeHandset_frame s v
    have hnow : (removeHandset s v).now = s.now := by rw [hframe]
    rw [hentered hheard hnew hroom hnow, removeHandset_eq]
    rfl

/-! ## Frames from a known handset (R40) -/

theorem boundCar_congr {t u : CodeTable Binding} (h : ∀ c, (t.get c).handset = (u.get c).handset) (a : HandsetAddr) :
    boundCar t a = boundCar u a := by
  simp only [boundCar, h]

/-- The order of a handset's car changed. -/
def reordered (t : CodeTable Binding) (h : HandsetAddr) (f : Standing → Standing) : CodeTable Binding :=
  match boundCar t h with
  | some c => t.set c { t.get c with standing := f (t.get c).standing }
  | none => t

theorem reordered_id (t : CodeTable Binding) (h : HandsetAddr) : reordered t h id = t := by
  unfold reordered
  split
  · exact CodeTable.set_get t _
  · rfl

theorem reordered_reordered (t : CodeTable Binding) (h : HandsetAddr) (f g : Standing → Standing) :
    reordered (reordered t h f) h g = reordered t h (g ∘ f) := by
  have hsame : boundCar (reordered t h f) h = boundCar t h := by
    refine boundCar_congr (fun c => ?_) h
    unfold reordered
    split
    · rw [CodeTable.get_set]
      split
      · next hc => rw [hc]
      · rfl
    · rfl
  unfold reordered at hsame ⊢
  cases hcar : boundCar t h with
  | none => simp only [hcar]
  | some c =>
    simp only [hcar] at hsame ⊢
    rw [hsame]
    simp

theorem pressTaken_eq (s : State) (h : HandsetAddr) :
    pressTaken s h = { s with bind := { s.bind with entries := reordered s.bind.entries h (fun _ => .empty) } } := by
  unfold pressTaken reordered
  cases boundCar s.bind.entries h <;> rfl

theorem programTaken_eq (s : State) (h : HandsetAddr) (d : Dir) (v : Nat) :
    programTaken s h d v = { s with bind := { s.bind with entries := reordered s.bind.entries h (fun _ => programmed d v) } } := by
  unfold programTaken reordered
  cases boundCar s.bind.entries h <;> rfl

/-- R40: an entry after the press of a frame, if it is one. -/
def HandsetFrame.pressed (f : HandsetFrame) (e : HandsetEntry) (now : Time) (x : HandsetEntry) : HandsetEntry :=
  if f.pressCount = e.pressCount then x
  else { x with pressCount := f.pressCount, request := some { dir := f.pressDir, count := f.pressCount, latched := now } }

theorem map_at_id (hs : List HandsetEntry) (a : HandsetAddr) : hs.map (fun x => if x.address = a then x else x) = hs := by
  simp

theorem map_at_map_at (hs : List HandsetEntry) (a : HandsetAddr) (f g : HandsetEntry → HandsetEntry)
    (hf : ∀ x, (f x).address = x.address) :
    (hs.map (fun x => if x.address = a then f x else x)).map (fun x => if x.address = a then g x else x) =
      hs.map (fun x => if x.address = a then g (f x) else x) := by
  rw [List.map_map]
  refine List.map_congr_left fun x _ => ?_
  simp only [Function.comp_apply]
  by_cases hx : x.address = a
  · rw [if_pos hx, if_pos (by rw [hf]; exact hx), if_pos hx]
  · rw [if_neg hx, if_neg hx, if_neg hx]

theorem takePress_eq (s : State) (f : HandsetFrame) (e : HandsetEntry) : takePress s f e = { s with
    handsets := s.handsets.map (fun x => if x.address = f.address then f.pressed e s.now x else x)
    bind := { s.bind with
      entries := reordered s.bind.entries f.address (if f.pressCount = e.pressCount then id else fun _ => .empty) } } := by
  unfold takePress HandsetFrame.pressed
  by_cases h : f.pressCount = e.pressCount
  · simp only [if_pos h, map_at_id, reordered_id]
  · simp only [if_neg h, pressTaken_eq]
    rfl

theorem takeProgram_eq (s : State) (f : HandsetFrame) (e : HandsetEntry) : takeProgram s f e = { s with
    handsets := s.handsets.map (fun x => if x.address = f.address then
      (if f.programCount = e.programCount then x else { x with programCount := f.programCount }) else x)
    bind := { s.bind with
      entries := reordered s.bind.entries f.address
        (if f.programCount = e.programCount then id else fun _ => programmed f.programDir f.programValue) } } := by
  unfold takeProgram
  by_cases h : f.programCount = e.programCount
  · simp only [if_pos h, map_at_id, reordered_id]
  · simp only [if_neg h, programTaken_eq]
    rfl

/-- R40, R41, R46: an entry after the counts of a frame. -/
def HandsetFrame.counted (f : HandsetFrame) (e : HandsetEntry) (now : Time) (x : HandsetEntry) : HandsetEntry :=
  if e.resync then { x with pressCount := f.pressCount, programCount := f.programCount, resync := false }
  else if f.programCount = e.programCount then f.pressed e now x
  else { f.pressed e now x with programCount := f.programCount }

/-- R70, R71: an order after the counts of a frame: a press cancels it, and then a program sets or cancels it. -/
def HandsetFrame.orders (f : HandsetFrame) (e : HandsetEntry) (x : Standing) : Standing :=
  if e.resync then x
  else if f.programCount = e.programCount then (if f.pressCount = e.pressCount then x else .empty)
  else programmed f.programDir f.programValue

theorem HandsetFrame.pressed_address (f : HandsetFrame) (e : HandsetEntry) (now : Time) (x : HandsetEntry) :
    (f.pressed e now x).address = x.address := by
  unfold HandsetFrame.pressed
  split <;> rfl

theorem takeCounts_eq (s : State) (f : HandsetFrame) (e : HandsetEntry) : takeCounts s f e = { s with
    handsets := s.handsets.map (fun x => if x.address = f.address then f.counted e s.now x else x)
    bind := { s.bind with entries := reordered s.bind.entries f.address (f.orders e) } } := by
  unfold takeCounts
  by_cases hresync : e.resync = true
  · have horders : f.orders e = id := funext fun x => if_pos hresync
    rw [if_pos hresync, horders, reordered_id]
    simp only [HandsetFrame.counted, if_pos hresync]
    rfl
  · rw [if_neg hresync, takeProgram_eq, takePress_eq]
    simp only [reordered_reordered, map_at_map_at _ _ _ _ (f.pressed_address e s.now)]
    have horders : (if f.programCount = e.programCount then id else fun _ => programmed f.programDir f.programValue) ∘
        (if f.pressCount = e.pressCount then id else fun _ => Standing.empty) = f.orders e := by
      funext x
      simp only [HandsetFrame.orders, if_neg hresync, Function.comp_apply]
      by_cases hprogram : f.programCount = e.programCount <;> by_cases hpress : f.pressCount = e.pressCount <;>
        simp [hprogram, hpress]
    rw [horders]
    simp only [HandsetFrame.counted, if_neg hresync]

theorem HandsetFrame.counted_address (f : HandsetFrame) (e : HandsetEntry) (now : Time) (x : HandsetEntry) :
    (f.counted e now x).address = x.address := by
  unfold HandsetFrame.counted
  split
  · rfl
  · split <;> exact f.pressed_address e now x

/-- R40: what a frame of a known handset makes before its gesture is told. -/
theorem knownFrame_eq (s : State) (f : HandsetFrame) (e : HandsetEntry) :
    knownFrame s f e =
      let u : State := { s with
        handsets := s.handsets.map (fun x => if x.address = f.address then
          (f.counted e s.now { x with lastHeard := s.now }).takeGesture s.now f.gesture else x)
        bind := { s.bind with entries := reordered s.bind.entries f.address (f.orders e) } }
      if e.freshGesture = f.gesture then u else judgeLocal u := by
  have hheard := map_at_map_at s.handsets f.address (fun x => { x with lastHeard := s.now }) (f.counted e s.now) (fun _ => rfl)
  have hcounted := map_at_map_at s.handsets f.address (fun x => f.counted e s.now { x with lastHeard := s.now })
    (fun x => x.takeGesture s.now f.gesture) (fun x => f.counted_address e s.now _)
  simp only [knownFrame, takeCounts_eq, takeGesture, State.updateHandset, hheard, hcounted]

theorem handsetEntry_eq_some {s : State} {a : HandsetAddr} {e : HandsetEntry} (hmem : e ∈ s.handsets) (ha : e.address = a)
    (honly : ∀ x ∈ s.handsets, x.address = a → x = e) : handsetEntry s a = some e := by
  cases hfind : handsetEntry s a with
  | none => exact absurd ha (handsetEntry_eq_none.1 hfind e hmem)
  | some x =>
    have hx := List.find?_some hfind
    rw [honly x (List.mem_of_find?_eq_some hfind) (by simpa using hx)]

/-- Settles O26: the one entry of the address is read, and its car's order takes the press and then the program. -/
theorem knownFrameTakesPressThenProgram : Obligations.KnownFrameTakesPressThenProgram := by
  intro levels span s f e hheard hmem haddress honly pressed programs request entry program standing u
  have hentry : ∀ x ∈ s.handsets, (if x.address = f.address then
      (f.counted e s.now { x with lastHeard := s.now }).takeGesture s.now f.gesture else x) =
      if x.address = f.address then entry else x := by
    intro x hx
    split
    · next ha =>
      obtain rfl := honly x hx ha
      simp only [entry, request, pressed, HandsetFrame.counted, HandsetFrame.pressed, HandsetEntry.takeGesture]
      by_cases hresync : x.resync = true <;> by_cases hprogram : f.programCount = x.programCount <;>
        by_cases hpress : f.pressCount = x.pressCount <;> simp [hresync, hprogram, hpress, haddress]
    · rfl
  have horders : f.orders e = standing := by
    funext x
    simp only [standing, programs, pressed, program, HandsetFrame.orders, programmed]
    by_cases hresync : e.resync = true <;> by_cases hprogram : f.programCount = e.programCount <;>
      by_cases hpress : f.pressCount = e.pressCount <;> simp [hresync, hprogram, hpress]
  have hbind : { s.bind with entries := reordered s.bind.entries f.address (f.orders e) } = u.bind := by
    simp only [u, reordered, horders]
    cases boundCar s.bind.entries f.address <;> rfl
  rw [exec_handsetFrame, handsetFrame_heard hheard, acceptFrame, handsetEntry_eq_some hmem haddress honly]
  refine congrArg _ ?_
  simp only [knownFrame_eq, List.map_congr_left hentry, hbind]
  rfl

/-! ## The timers of an entry (R39, R45) -/

theorem exec_handsetStaleRemoval (a : HandsetAddr) (s : State) : exec (.handsetStaleRemoval a) s = .next (handsetStaleRemoval a s) := rfl

theorem exec_gestureLapse (a : HandsetAddr) (s : State) : exec (.gestureLapse a) s = .next (gestureLapse a s) := rfl

theorem handsetEntry_address {s : State} {a : HandsetAddr} {e : HandsetEntry} (h : handsetEntry s a = some e) : e.address = a := by
  simpa using List.find?_some h

/-- The judgement of the local bind condition removes handset entries, and no more. -/
theorem judgeLocal_handsets (s : State) : (judgeLocal s).handsets.Sublist s.handsets := by
  refine judgeLocal_keeps (P := fun t => t.handsets.Sublist s.handsets) (List.Sublist.refl _) fun _ l p => ?_
  unfold localBind
  split
  · obtain ⟨_, _, hr⟩ := startRun_frame (queueLiveBind (applyProposal s p) p.car) l p.car
    rw [hr]
    show (applyProposal s p).handsets.Sublist _
    rw [applyProposal_handsets]
    exact List.filter_sublist
  · exact List.Sublist.refl _

/-- R54: without a coded stall the judgement changes nothing. -/
theorem judgeLocal_of_codedStalls_nil {s : State} (h : codedStalls s = []) : judgeLocal s = s := by
  rcases judgeLocal_cases s with hs | ⟨_, _, _, _, _, _, hstalls, _⟩
  · exact hs
  · rw [h] at hstalls
    cases hstalls

/-- Settles O27: each timer reads the entry of its address. -/
theorem handsetTimersRun : Obligations.HandsetTimersRun := by
  refine ⟨fun a s e hentry hlive hunbound hdue => ?_, fun a s e hentry hfresh hdue => ?_⟩
  · intro u
    have hstale : isStale s.now e = true := hdue
    rw [exec_handsetStaleRemoval, handsetStaleRemoval, hentry]
    simp only [hlive, hunbound, hstale, Bool.not_false, Bool.and_self, if_true]
    rw [removeHandset_eq, handsetEntry_address hentry]
    rfl
  · intro u
    have hgesturing : e.gesturing = true := by simpa [HandsetEntry.gesturing] using hfresh
    have hexec : exec (.gestureLapse a) s = .next (judgeLocal u) := by
      rw [exec_gestureLapse, gestureLapse, hentry]
      refine congrArg _ (if_pos ?_)
      rw [hgesturing, Bool.true_and]
      exact hdue
    refine ⟨hexec, fun hnone => ?_, fun x hx ha => ?_, ?_⟩
    · exact hexec.trans (congrArg _ (judgeLocal_of_codedStalls_nil (s := u) hnone))
    · obtain ⟨y, _, hy⟩ := List.mem_map.1 ((judgeLocal_handsets u).subset hx)
      split at hy
      · rw [← hy]
        rfl
      · next hne =>
        rw [hy] at hne
        exact absurd ha hne
    · obtain ⟨_, _, _, _, _, _, _, h⟩ := judgeLocal_frame u
      rw [h]

end Sys2Proof.Machine
end


/-! # The replay of the binding table (R62, R63) and what leaves the queue (R155) -/

section
namespace Sys2Proof.Machine

open Sys2Proof.Safety

/-! ## The entries that are due -/

theorem Car.all_ordered : Car.all.Pairwise (fun a b => a.val < b.val) := by decide

theorem mem_dueEntries {t : CodeTable Binding} {start c : Car} : c ∈ dueEntries t start ↔ start.val ≤ c.val ∧ (t.get c).stamp ≠ 0 := by
  simp [dueEntries]

theorem dueEntries_ordered (t : CodeTable Binding) (start : Car) : (dueEntries t start).Pairwise (fun a b => a.val < b.val) :=
  Car.all_ordered.sublist List.filter_sublist

theorem nextReplay_eq (t : CodeTable Binding) (start : Car) : nextReplay t start = (dueEntries t start).head? :=
  (List.head?_filter ..).symm

theorem Car.next_eq_some {c d : Car} : Car.next c = some d ↔ d.val = c.val + 1 := by
  unfold Car.next
  split
  · rw [Option.some.injEq, Fin.ext_iff, eq_comm]
  · have := d.isLt
    constructor
    · nofun
    · intro h
      omega

theorem Car.next_eq_none {c : Car} : Car.next c = none ↔ c.val = 14 := by
  have := c.isLt
  unfold Car.next
  split <;> simp <;> omega

/-- R63: after the first due entry come those from the next place on. -/
theorem dueEntries_tail {t : CodeTable Binding} {start d : Car} {rest : List Car} (h : dueEntries t start = d :: rest) :
    rest = Car.all.filter (fun c => decide (d.val < c.val) && decide ((t.get c).stamp ≠ 0)) := by
  have hordered := dueEntries_ordered t start
  have hd : d ∈ dueEntries t start := by rw [h]; exact List.mem_cons_self
  obtain ⟨hstart, _⟩ := mem_dueEntries.1 hd
  rw [h, List.pairwise_cons] at hordered
  calc rest = (d :: rest).filter (fun c => decide (d.val < c.val)) := by
        rw [List.filter_cons_of_neg (by simp), List.filter_eq_self.2]
        exact fun x hx => by simpa using hordered.1 x hx
    _ = _ := by
        rw [← h, dueEntries, List.filter_filter]
        refine List.filter_congr fun c _ => ?_
        by_cases hc : d.val < c.val
        · have : start.val ≤ c.val := by omega
          simp [hc, this]
        · simp [hc]

theorem dueEntries_tail_next {t : CodeTable Binding} {start d e : Car} {rest : List Car} (h : dueEntries t start = d :: rest)
    (hnext : Car.next d = some e) : rest = dueEntries t e := by
  rw [dueEntries_tail h, dueEntries]
  refine List.filter_congr fun c _ => ?_
  rw [Car.next_eq_some.1 hnext]
  rfl

theorem dueEntries_tail_last {t : CodeTable Binding} {start d : Car} {rest : List Car} (h : dueEntries t start = d :: rest)
    (hnext : Car.next d = none) : rest = [] := by
  rw [dueEntries_tail h, List.filter_eq_nil_iff]
  intro c _
  have hd := Car.next_eq_none.1 hnext
  have := c.isLt
  simp
  omega

/-! ## A feed -/

theorem feedOnce_none {s : State} (h : s.bind.cursor = none) : feedOnce s = s := by
  rw [feedOnce, h]

theorem feedTimes_none {s : State} (h : s.bind.cursor = none) (n : Nat) : feedTimes n s = s := by
  induction n with
  | zero => rfl
  | succ n ih => rw [feedTimes, feedOnce_none h, ih]

/-- R63: the state after one entry has been fed. -/
def fedOne (s : State) (d : Car) : State :=
  { s with
    bind := { s.bind with cursor := Car.next d }
    line := { s.line with queue := enterFrame (replayFrame s 0 d) s.line.queue, nextId := s.line.nextId + 1 } }

theorem feedOnce_live {s : State} {c : Car} (hcursor : s.bind.cursor = some c) (hlive : s.node.live = true)
    (hroom : s.line.queue.length < 4) :
    feedOnce s = match (dueEntries s.bind.entries c).head? with
      | none => s.setCursor none
      | some d => fedOne s d := by
  have hbound : ¬Config.replayBound ≤ s.line.queue.length := Nat.not_le_of_gt hroom
  unfold feedOnce
  simp only [hcursor, if_neg hbound, nextReplay_eq]
  cases (dueEntries s.bind.entries c).head? with
  | none => rfl
  | some d =>
    have hsetup : s.node ≠ .setup := by
      intro e
      rw [e] at hlive
      cases hlive
    have haccepts : acceptsFrame s.node (.bind (bindBody d (s.bind.entries.get d))) = true := by
      cases hn : s.node <;> simp_all [NodeState.live, acceptsFrame]
    have hahead : arrived s.now (Time.plus s.now Config.bindDeadline) = false := arrived_plus s.now 7813 (by decide) (by decide)
    have hcap : s.line.queue.length < Config.queueCap := Nat.lt_of_lt_of_le hroom (by decide)
    have hframe : newFrame s 2 (.bind (bindBody d (s.bind.entries.get d))) (Time.plus s.now Config.bindDeadline) .bindingTable =
        replayFrame s 0 d := by
      simp only [newFrame, if_neg hsetup]
      rfl
    have hqueue : queueAfter s.node s.now (replayFrame s 0 d) s.line.queue = enterFrame (replayFrame s 0 d) s.line.queue := by
      have ha : acceptsFrame s.node (replayFrame s 0 d).body = true := haccepts
      have hd : arrived s.now (replayFrame s 0 d).deadline = false := hahead
      simp [queueAfter, ha, hd, makeRoom, hcap]
    simp only [handIn, hframe, hqueue]
    rfl

theorem replayed_full {s : State} {c : Car} (hfull : 4 ≤ s.line.queue.length) (hcursor : s.bind.cursor = some c) : replayed s c = s := by
  have hroom : 4 - s.line.queue.length = 0 := by omega
  have hbind : { s.bind with cursor := some c } = s.bind := by rw [← hcursor]
  simp only [replayed, hroom, List.take_zero, List.zipIdx_nil, List.foldl_nil, List.length_nil, if_true, Nat.add_zero, hbind]

theorem replayed_nil {s : State} {c : Car} (hroom : s.line.queue.length < 4) (hdue : dueEntries s.bind.entries c = []) :
    replayed s c = s.setCursor none := by
  have hne : 4 - s.line.queue.length ≠ 0 := by omega
  simp only [replayed, hdue, List.take_nil, List.zipIdx_nil, List.foldl_nil, List.length_nil, if_neg hne, Nat.add_zero,
    if_pos (Nat.pos_of_ne_zero hne)]
  rfl

/-- R63: the queue after entries are fed one after the other, the first as the next frame handed in after `n` others. -/
def replayQueue (s : State) (cs : List Car) (n : Nat) (q : List TxFrame) : List TxFrame :=
  (cs.zipIdx n).foldl (fun q p => enterFrame (replayFrame s p.2 p.1) q) q

theorem replayQueue_fedOne (s : State) (d : Car) (cs : List Car) (n : Nat) (q : List TxFrame) :
    replayQueue (fedOne s d) cs n q = replayQueue s cs (n + 1) q := by
  induction cs generalizing n q with
  | nil => rfl
  | cons c cs ih =>
    have hframe : replayFrame (fedOne s d) n c = replayFrame s (n + 1) c := by
      simp only [replayFrame, fedOne]
      congr 1
      omega
    simp only [replayQueue, List.zipIdx_cons, List.foldl_cons, hframe] at ih ⊢
    exact ih (n + 1) _

theorem enterFrame_length (f : TxFrame) (q : List TxFrame) : (enterFrame f q).length = q.length + 1 := enterInOrder_length _ _ _

/-- R63: what a feed from a place makes is what one entry makes, and then a feed from the place after it. -/
theorem replayed_cons {s : State} {c d : Car} {rest : List Car} (hroom : s.line.queue.length < 4)
    (hdue : dueEntries s.bind.entries c = d :: rest) :
    replayed s c = match Car.next d with
      | some e => replayed (fedOne s d) e
      | none => fedOne s d := by
  obtain ⟨r, hr⟩ : ∃ r, 4 - s.line.queue.length = r + 1 := ⟨3 - s.line.queue.length, by omega⟩
  cases hnext : Car.next d with
  | none =>
    obtain rfl := dueEntries_tail_last hdue hnext
    simp only [replayed, hr, hdue, List.take_succ_cons, List.take_nil, List.zipIdx_cons, List.zipIdx_nil, List.foldl_cons,
      List.foldl_nil, List.length_cons, List.length_nil, fedOne, List.getLast?_singleton, Option.bind_some, hnext, ite_self,
      if_neg (Nat.succ_ne_zero r)]
  | some e =>
    have hrest := dueEntries_tail_next hdue hnext
    have hr' : 4 - (fedOne s d).line.queue.length = r := by
      show 4 - (enterFrame _ _).length = r
      rw [enterFrame_length]
      omega
    have hqueue : replayQueue s ((d :: rest).take (r + 1)) 0 s.line.queue =
        replayQueue (fedOne s d) (rest.take r) 0 (fedOne s d).line.queue := by
      rw [replayQueue_fedOne]
      rfl
    have hcursor : (if r + 1 = 0 then some c else if (d :: rest).length < r + 1 then none
          else ((d :: rest).take (r + 1)).getLast?.bind Car.next) =
        (if r = 0 then some e else if rest.length < r then none else (rest.take r).getLast?.bind Car.next) := by
      rw [if_neg (Nat.succ_ne_zero r), List.take_succ_cons]
      cases r with
      | zero => simp [hnext]
      | succ r =>
        cases rest with
        | nil => simp
        | cons x rest => simp [List.getLast?_cons_cons]
    have hlength : s.line.nextId + ((d :: rest).take (r + 1)).length = s.line.nextId + 1 + (rest.take r).length := by
      rw [List.take_succ_cons, List.length_cons]
      omega
    unfold replayQueue at hqueue
    simp only [replayed, hr, hdue, hcursor, hqueue, hlength, hr']
    rw [show (fedOne s d).bind.entries = s.bind.entries from rfl, ← hrest]
    rfl

/-- R63: fed often enough, the cursor feeds until the queue holds 4 frames or no entry is left. -/
theorem feedTimes_eq {s : State} {c : Car} (n : Nat) (hcursor : s.bind.cursor = some c) (hlive : s.node.live = true)
    (hn : 4 - s.line.queue.length < n) : feedTimes n s = replayed s c := by
  induction n generalizing s c with
  | zero => omega
  | succ n ih =>
    rw [feedTimes]
    by_cases hroom : s.line.queue.length < 4
    · rw [feedOnce_live hcursor hlive hroom]
      cases hdue : dueEntries s.bind.entries c with
      | nil => exact (feedTimes_none rfl n).trans (replayed_nil hroom hdue).symm
      | cons d rest =>
        rw [replayed_cons hroom hdue]
        cases hnext : Car.next d with
        | none => exact feedTimes_none hnext n
        | some e =>
          refine ih (s := fedOne s d) hnext hlive ?_
          show 4 - (enterFrame _ _).length < n
          rw [enterFrame_length]
          omega
    · have hfull : Config.replayBound ≤ s.line.queue.length := Nat.le_of_not_lt hroom
      have hstay : feedOnce s = s := by simp [feedOnce, hcursor, hfull]
      rw [hstay]
      cases n with
      | zero => exact (replayed_full (Nat.le_of_not_lt hroom) hcursor).symm
      | succ n => exact ih hcursor hlive (by omega)

theorem feed_eq_replayed {s : State} {c : Car} (hcursor : s.bind.cursor = some c) (hlive : s.node.live = true) : feed s = replayed s c :=
  feedTimes_eq 5 hcursor hlive (by omega)

/-- R63, R155: a frame that leaves the queue lets a replay under way feed on. -/
theorem removeFrame_eq {s : State} (h : s.bind.cursor = none ∨ s.node.live = true) (id : Nat) : removeFrame s id = withoutFrame s id := by
  unfold removeFrame withoutFrame
  by_cases hany : s.line.queue.any (fun f => decide (f.id = id)) = true
  · rw [if_pos hany]
    obtain ⟨g, hg⟩ : ∃ g : State, g = s.setQueue (s.line.queue.filter (fun f => decide (f.id ≠ id))) := ⟨_, rfl⟩
    have hbind : g.bind = s.bind := by rw [hg]; rfl
    have hnode : g.node = s.node := by rw [hg]; rfl
    rw [← hg]
    cases hcursor : s.bind.cursor with
    | none => exact (feedTimes_none (by rw [hbind, hcursor]) _).trans hg
    | some c =>
      have hlive : g.node.live = true := by
        rw [hnode]
        exact h.resolve_left (by rw [hcursor]; nofun)
      rw [feed_eq_replayed (by rw [hbind, hcursor]) hlive, hg]
      simp only [hany, if_true]
      rfl
  · have hgone : s.line.queue.filter (fun f => decide (f.id ≠ id)) = s.line.queue := by
      rw [List.filter_eq_self]
      intro f hf
      simp only [List.any_eq_true, not_exists, not_and, decide_eq_true_eq] at hany
      simpa using hany f hf
    rw [if_neg hany, hgone]
    cases s.bind.cursor <;> simp [hany]

/-! ## A replay that has ended (R63) -/

theorem mem_enterFrame {x f : TxFrame} {q : List TxFrame} : x ∈ enterFrame f q ↔ x = f ∨ x ∈ q := mem_enterInOrder _ _ _ _

theorem mem_foldl_enterFrame {α : Type} {frame : α → TxFrame} {x : TxFrame} {ps : List α} {q : List TxFrame}
    (h : x ∈ q ∨ ∃ p ∈ ps, x = frame p) : x ∈ ps.foldl (fun q p => enterFrame (frame p) q) q := by
  induction ps generalizing q with
  | nil => simpa using h
  | cons p ps ih =>
    rw [List.foldl_cons]
    refine ih ?_
    rw [mem_enterFrame]
    simp only [List.mem_cons, exists_eq_or_imp] at h
    tauto

/-- R63: where a replay leaves the cursor absent, every entry that was due has been fed. -/
theorem dueEntries_fed {t : CodeTable Binding} {start : Car} {room : Nat} (hroom : room ≠ 0)
    (hended : (if (dueEntries t start).length < room then none else ((dueEntries t start).take room).getLast?.bind Car.next) = none) :
    (dueEntries t start).take room = dueEntries t start := by
  refine List.take_of_length_le ?_
  by_contra hmore
  rw [if_neg (by omega)] at hended
  have hfirst : (dueEntries t start)[0] ∈ (dueEntries t start).take room := List.mem_take_iff_getElem.2 ⟨0, by omega, rfl⟩
  obtain ⟨last, hlast⟩ : ∃ c, ((dueEntries t start).take room).getLast? = some c :=
    ⟨_, List.getLast?_eq_some_getLast (List.ne_nil_of_mem hfirst)⟩
  rw [hlast, Option.bind_some, Car.next_eq_none] at hended
  obtain ⟨x, hx⟩ : ∃ x, x ∈ (dueEntries t start).drop room := ⟨(dueEntries t start)[room], List.mem_drop_iff_getElem.2 ⟨0, by omega, by simp⟩⟩
  have hordered := dueEntries_ordered t start
  rw [← List.take_append_drop room (dueEntries t start), List.pairwise_append] at hordered
  have := hordered.2.2 last (List.mem_of_getLast? hlast) x hx
  have := x.isLt
  omega

/-- R62: a JOIN starts the replay, and it feeds. -/
theorem feed_setCursor {s : State} (hlive : s.node.live = true) (c : Car) : feed (s.setCursor (some c)) = replayed s c :=
  feed_eq_replayed (s := s.setCursor (some c)) rfl hlive

theorem watching_of_live {n : NodeState} (h : n.live = true) : n.watching = true := by
  cases n <;> simp_all [NodeState.live, NodeState.watching]

/-- R151 to R153: a delivered frame that is no BEACON does step 1, and then serves its taker. -/
theorem receiveFrame_heardOnly {s : State} {bits : List Bool} {kind : FrameKind} {f : GoodFrame} (h : delivered s bits kind f)
    (hkind : kind ≠ .beacon) (hwatching : s.node.watching = true) (take : GoodFrame → Time → State → State) (phase : BitVec 3) :
    receiveFrame kind take bits phase s = take f (stampOf s phase kind) (heardOnly s f) := by
  have hf : f.kind ≠ .beacon := by
    obtain ⟨_, _, hk, _⟩ := h
    rw [hk]
    exact hkind
  rw [receiveFrame_delivered h, heard_eq_heardOnly s f hf hwatching]

/-- R155: a frame that is no TAKEN leaves the queue at its deadline. -/
theorem removeLate_of_not_taken {s : State} {f : TxFrame} (h : f.isTaken = false) : removeLate s f = removeFrame s f.id := by
  unfold removeLate
  cases f.owner with
  | grantUnit l => simp [h]
  | _ => rfl

/-- R155: a deadline that has arrived. -/
theorem exec_frameDeadline_due {i : Nat} {s : State} {f : TxFrame} (hget : s.line.queue[i]? = some f)
    (hdue : arrived s.now f.deadline = true) : exec (.frameDeadline i) s = .next (removeLate s f) := by
  show Host.Outcome.next (frameDeadline i s) = _
  simp [frameDeadline, hget, hdue]

/-- R150: an attempt whose last bit has been read back. -/
theorem exec_attemptComplete_due {s : State} {a : Attempt} (hsend : s.line.send = .sending a) (hbits : a.bits ≠ [])
    (hdue : arrived s.now (Time.plus a.start ((a.phase.toNat + (a.bits.length - 1)) / 8)) = true) :
    exec .attemptComplete s = .next (completeSend s a.frame) := by
  have hreached : a.reached s.now (a.bits.length - 1) = true := by
    have := List.length_pos_of_ne_nil hbits
    rw [Attempt.reached, Bool.and_eq_true, decide_eq_true_eq]
    exact ⟨by omega, hdue⟩
  show Host.Outcome.next (attemptComplete s) = _
  simp [attemptComplete, hsend, hreached]

/-- R63: a frame that is held leaves the queue while a replay is under way. -/
theorem withoutFrame_held {s : State} {c : Car} {id : Nat} (hcursor : s.bind.cursor = some c) (hheld : ∃ f ∈ s.line.queue, f.id = id) :
    withoutFrame s id = replayed { s with line := { s.line with queue := s.line.queue.filter (fun f => decide (f.id ≠ id)) } } c := by
  have hany : s.line.queue.any (fun f => decide (f.id = id)) = true := by simpa using hheld
  simp only [withoutFrame, hcursor, hany, if_true]

theorem reportSent_other {s : State} {f : TxFrame} (h : ∀ l, f.owner ≠ .grantUnit l) : reportSent s f = s := by
  unfold reportSent
  cases ho : f.owner with
  | grantUnit l => exact absurd ho (h l)
  | _ => rfl

theorem restartBeacon_live {s : State} (h : s.node.live = true) :
    restartBeacon s = { s with line := { s.line with beacon := some s.now } } := if_pos h

/-- Settles O32: a feed is what `replayed` says, at a JOIN and wherever a frame leaves the queue. -/
theorem joinStartsTheReplay : Obligations.JoinStartsTheReplay := by
  refine ⟨fun bits phase s f hf hlive => ?_, fun s hended c hstamp => ?_, fun i s f c hget htaken hdue hcursor hlive => ?_,
    fun s a c hsend hbits hcursor hlive hdue hheld howner => ?_⟩
  · show Host.Outcome.next (receiveFrame .join takeJoin bits phase s) = _
    rw [receiveFrame_heardOnly hf (by decide) (watching_of_live hlive)]
    have hlive' : (heardOnly s f).node.live = true := hlive
    refine congrArg _ ((if_pos hlive').trans ?_)
    by_cases hdown : f.originator = s.working.downstream ∧ f.originator ≠ 0
    · exact (if_pos hdown).trans ((feed_setCursor hlive' 0).trans (if_pos hdown).symm)
    · exact (if_neg hdown).trans (if_neg hdown).symm
  · have hroom : 4 - s.line.queue.length ≠ 0 := by
      intro h0
      simp only [replayed, h0, if_true] at hended
      cases hended
    have hfed := dueEntries_fed hroom ((if_neg hroom).symm.trans hended)
    have hdue : c ∈ dueEntries s.bind.entries 0 := mem_dueEntries.2 ⟨Nat.zero_le _, hstamp⟩
    rw [← hfed] at hdue
    obtain ⟨n, hn, hget⟩ := List.mem_iff_getElem.1 hdue
    refine ⟨replayFrame s n c, mem_foldl_enterFrame (.inr ⟨(c, n), ?_, rfl⟩), rfl, rfl, rfl, rfl⟩
    rw [List.mk_mem_zipIdx_iff_getElem?, List.getElem?_eq_getElem hn, hget]
  · have hheld : ∃ x ∈ s.line.queue, x.id = f.id := ⟨f, List.mem_of_getElem? hget, rfl⟩
    rw [exec_frameDeadline_due hget hdue, removeLate_of_not_taken htaken, removeFrame_eq (.inr hlive), withoutFrame_held hcursor hheld]
  · intro r
    have hleft : removeFrame (frameEnded s) a.frame.id = r := by
      rw [removeFrame_eq (s := frameEnded s) (.inr hlive), withoutFrame_held (s := frameEnded s) hcursor hheld]
      rfl
    have hr : r.node.live = true ∧ r.now = s.now := ⟨hlive, rfl⟩
    rw [exec_attemptComplete_due hsend hbits hdue, completeSend, hleft, reportSent_other howner, restartBeacon_live hr.1, hr.2]

end Sys2Proof.Machine
end


/-! # The section line: attempts, deadlines, the BEACON and reception (section 10) -/

section
namespace Sys2Proof.Machine

open Sys2Proof.Safety

/-! ## Attempts (R147 to R149) -/

/-- R147, R148, R149: a bit of an attempt whose time has come. -/
theorem Attempt.reached_of_getElem? {a : Attempt} {now : Time} {i : Nat} {b : Bool} (hget : a.bits[i]? = some b)
    (hdue : arrived now (Time.plus a.start ((a.phase.toNat + i) / 8)) = true) : a.reached now i = true := by
  obtain ⟨hi, _⟩ := List.getElem?_eq_some_iff.1 hget
  rw [Attempt.reached, Bool.and_eq_true, decide_eq_true_eq]
  exact ⟨hi, hdue⟩

theorem Attempt.loses_eq {a : Attempt} {i : Nat} {b : Bool} (hget : a.bits[i]? = some b) : a.loses i = (isHeaderPosition i && b) := by
  rw [Attempt.loses, List.getD_eq_getElem?_getD, hget]
  rfl

/-- Settles O47: an attempt starts in READY, and a mismatch is a loss at a recessive header bit and else a fault. -/
theorem attemptStartsLosesAndFaults : Obligations.AttemptStartsLosesAndFaults := by
  refine ⟨fun phase s f q hqueue hsend hstate hnode => ?_, fun i s a hsend hget hlow hhigh hspacer hdue => ?_,
    fun i s a b hsend hget hfault hdue => ?_⟩
  · intro p
    have hdrives : s.node.drives = true := by rcases hnode with h | h | h <;> rw [h] <;> rfl
    show Host.Outcome.next (attemptStart phase s) = _
    simp only [attemptStart, hqueue, hsend, hdrives, hstate, decide_true, Bool.and_self, if_true]
    rw [← hqueue]
    rfl
  · have hloses : a.loses i = true := by
      rw [Attempt.loses_eq hget]
      simp [isHeaderPosition, hlow, hhigh, hspacer]
    show Host.Outcome.next (arbitrationLoss i s) = _
    simp only [arbitrationLoss, hsend, Attempt.reached_of_getElem? hget hdue, hloses, Bool.and_self, if_true]
    rfl
  · have hkeeps : a.loses i = false := by
      rw [Attempt.loses_eq hget, Bool.and_eq_false_iff]
      rcases hfault with h | h | h | h
      · exact .inr h
      iterate 3
        left
        simp [isHeaderPosition]
        omega
    have hbit : a.bits.getD i false = b := by rw [List.getD_eq_getElem?_getD, hget]; rfl
    show Host.Outcome.next (bitFault i s) = _
    simp only [bitFault, hsend, Attempt.reached_of_getElem? hget hdue, hkeeps, Bool.not_false, Bool.and_self, if_true, Attempt.readUpTo,
      hbit]
    rfl

/-! ## Complete sends (R150) -/

/-- R155: what a frame that leaves the queue can change. -/
theorem withoutFrame_fields (s : State) (id : Nat) : withoutFrame s id = { s with
    bind := { s.bind with cursor := (withoutFrame s id).bind.cursor }
    line := { s.line with queue := (withoutFrame s id).line.queue, nextId := (withoutFrame s id).line.nextId } } := by
  unfold withoutFrame
  cases s.bind.cursor with
  | none => rfl
  | some c =>
    simp only
    split <;> rfl

/-- R146, R155: the line state and the send status do not matter to what leaves the queue. -/
theorem withoutFrame_frameEnded (s : State) (id : Nat) : withoutFrame (frameEnded s) id =
    { withoutFrame s id with line := { (withoutFrame s id).line with state := .waitIdle 0, send := .idle } } := by
  unfold withoutFrame
  cases hcursor : s.bind.cursor with
  | none => simp [hcursor]
  | some c =>
    simp only [frameEnded_eq, hcursor]
    by_cases hany : s.line.queue.any (fun f => decide (f.id = id)) = true
    · refine (if_pos hany).trans ?_
      rw [if_pos hany]
      rfl
    · refine (if_neg hany).trans ?_
      rw [if_neg hany]

/-- R119, R150: a complete send that is not a PROVISIONAL slot's own is not acted on. -/
theorem reportSent_stale {s : State} {f : TxFrame}
    (h : ∀ l g, f.owner = .grantUnit l → s.grants.slots.get l = some g → ¬(g.state = .provisional ∧ g.frame = some f.id)) :
    reportSent s f = s := by
  unfold reportSent
  cases ho : f.owner with
  | grantUnit l =>
    simp only [frameSent]
    cases hg : s.grants.slots.get l with
    | none => rfl
    | some g => exact if_neg (h l g ho hg)
  | _ => rfl

/-- R119, R135, R136: a commitment arms the blade, which throws at once where its time has arrived in RUN. -/
theorem commitGrant_rest {s : State} {l : Lane} {g : Grant} (hrest : (s.blades.get l).state = .rest) (hrun : s.node = .run) :
    commitGrant s l g = { s with
      grants := { s.grants with slots := s.grants.slots.set l (some { g with state := .committed, frame := none }) }
      blades := s.blades.set l (if arrived s.now g.throwAt
        then { s.blades.get l with state := .thrown, throwAt := some g.throwAt, releaseAt := some g.releaseAt, coil := true,
                                   drivenSince := some s.now }
        else { s.blades.get l with state := .armed, throwAt := some g.throwAt, releaseAt := some g.releaseAt }) } := by
  unfold commitGrant armBlade
  have hrest' : ((s.setSlot l (some { g with state := .committed, frame := none })).blades.get l).state = .rest := hrest
  have hrun' : (s.setSlot l (some { g with state := .committed, frame := none })).node = .run := hrun
  simp only [if_pos hrest', hrun', decide_true, Bool.and_true]
  by_cases hdue : arrived s.now g.throwAt = true
  · simp only [State.setSlot_now, hdue, if_true]
    rfl
  · simp only [State.setSlot_now, hdue]
    rfl

theorem restartBeacon_eq (s : State) : restartBeacon s = { s with line := { s.line with
    beacon := if s.node = .sync ∨ s.node = .run then some s.now else s.line.beacon } } := by
  unfold restartBeacon
  by_cases hlive : s.node = .sync ∨ s.node = .run
  · rw [if_pos ((live_iff _).2 hlive), if_pos hlive]
  · rw [if_neg (fun h => hlive ((live_iff _).1 h)), if_neg hlive]

/-- Settles O49: the frame leaves the queue, the grant unit is told, and the timer restarts. -/
theorem completeSendReportsToTheOwner : Obligations.CompleteSendReportsToTheOwner := by
  intro s a hsend hbits hfeeds hdue left sent
  obtain ⟨u, hu⟩ : ∃ u : State, u = { left with line := { left.line with state := .waitIdle 0, send := .idle } } := ⟨_, rfl⟩
  have hleft : removeFrame (frameEnded s) a.frame.id = u := by
    rw [removeFrame_eq (s := frameEnded s) hfeeds, withoutFrame_frameEnded, hu]
  have hfields := withoutFrame_fields s a.frame.id
  have hsame : u.now = s.now ∧ u.node = s.node ∧ u.grants = s.grants ∧ u.blades = s.blades ∧ u.line.beacon = s.line.beacon := by
    rw [hu]
    show left.now = _ ∧ left.node = _ ∧ left.grants = _ ∧ left.blades = _ ∧ left.line.beacon = _
    rw [show left = _ from hfields]
    exact ⟨rfl, rfl, rfl, rfl, rfl⟩
  obtain ⟨hnow, hnode, hgrants, hblades, hbeacon⟩ := hsame
  have hsent : restartBeacon u = sent := by
    have hnow' : left.now = s.now := by rw [← hnow, hu]
    have hnode' : left.node = s.node := by rw [← hnode, hu]
    have hbeacon' : left.line.beacon = s.line.beacon := by rw [← hbeacon, hu]
    simp only [restartBeacon_eq, hu, sent, hnow', hnode', hbeacon']
  rw [exec_attemptComplete_due hsend hbits hdue, completeSend, hleft]
  refine ⟨fun hstale => ?_, fun l g howner hslot hprov hframe hrest hrun => ?_⟩
  · rw [reportSent_stale (by rw [hgrants]; exact hstale), hsent]
  · have hcommit : reportSent u a.frame = commitGrant u l g := by
      unfold reportSent
      rw [howner]
      simp only [frameSent, hgrants, hslot]
      exact if_pos ⟨hprov, hframe⟩
    rw [hcommit, commitGrant_rest (by rw [hblades]; exact hrest) (by rw [hnode]; exact hrun), ← hsent, restartBeacon_eq,
      restartBeacon_eq]
    simp only [hgrants, hblades, hnow]

/-! ## Deadlines and the BEACON (R155, R157) -/

theorem withoutFrame_no_replay {s : State} (h : s.bind.cursor = none) (id : Nat) :
    withoutFrame s id = { s with line := { s.line with queue := s.line.queue.filter (fun f => decide (f.id ≠ id)) } } := by
  simp only [withoutFrame, h]

theorem isBeacon_replayFrame (s : State) (n : Nat) (c : Car) : (replayFrame s n c).isBeacon = false := rfl

theorem filter_enterFrame_of_not {p : TxFrame → Bool} {f : TxFrame} {q : List TxFrame} (hf : p f = false) (hq : q.filter p = []) :
    (enterFrame f q).filter p = [] := by
  rw [List.filter_eq_nil_iff] at hq ⊢
  intro x hx
  rcases mem_enterFrame.1 hx with rfl | hx
  · simp [hf]
  · exact hq x hx

/-- R63: a replay queues no BEACON. -/
theorem replayed_beacons {s : State} (c : Car) (h : s.line.queue.filter TxFrame.isBeacon = []) :
    (replayed s c).line.queue.filter TxFrame.isBeacon = [] := by
  simp only [replayed]
  generalize ((dueEntries s.bind.entries c).take (4 - s.line.queue.length)).zipIdx = ps
  generalize s.line.queue = q at h
  induction ps generalizing q with
  | nil => exact h
  | cons p ps ih => exact ih _ (filter_enterFrame_of_not (isBeacon_replayFrame s p.2 p.1) h)

/-- R157: where one BEACON at most is held, none is left once it has been taken out. -/
theorem withoutFrame_beacons {s : State} {b : TxFrame} (hone : (s.line.queue.filter TxFrame.isBeacon).length ≤ 1)
    (hb : b ∈ s.line.queue.filter TxFrame.isBeacon) : (withoutFrame s b.id).line.queue.filter TxFrame.isBeacon = [] := by
  obtain ⟨x, hx⟩ := List.length_eq_one_iff.1 (Nat.le_antisymm hone (List.length_pos_of_mem hb))
  have hgone : (s.line.queue.filter (fun f => decide (f.id ≠ b.id))).filter TxFrame.isBeacon = [] := by
    rw [List.filter_comm, hx]
    rw [hx, List.mem_singleton] at hb
    simp [hb]
  unfold withoutFrame
  cases s.bind.cursor with
  | none => exact hgone
  | some c =>
    simp only
    split
    · exact replayed_beacons c hgone
    · exact hgone

/-- R143: in SYNC and RUN every frame is taken. -/
theorem acceptsFrame_of_live {n : NodeState} (h : n.live = true) (b : FrameBody) : acceptsFrame n b = true := by
  rcases (live_iff n).1 h with rfl | rfl <;> rfl

/-- R157: where the numbers tell the frames apart, taking out the number of the one BEACON takes out the BEACON alone. -/
theorem filter_id_eq_filter_beacon {q : List TxFrame} {b : TxFrame} (hone : (q.filter TxFrame.isBeacon).length ≤ 1) (hb : b ∈ q)
    (hbeacon : b.isBeacon = true) (hdistinct : q.Pairwise (fun a b => a.id ≠ b.id)) :
    q.filter (fun f => decide (f.id ≠ b.id)) = q.filter (fun x => !x.isBeacon) := by
  refine List.filter_congr fun x hx => ?_
  have hsame : x.id = b.id ↔ x.isBeacon = true := by
    constructor
    · intro hid
      by_contra hne
      have hxb : x ≠ b := fun e => hne (by rw [e]; exact hbeacon)
      have : Std.Symm (fun a b : TxFrame => a.id ≠ b.id) := ⟨fun _ _ h => h.symm⟩
      exact hdistinct.forall hx hb hxb hid
    · intro hxb
      have hmem : ∀ y, y ∈ q → y.isBeacon = true → y ∈ q.filter TxFrame.isBeacon := fun y hy h => List.mem_filter.2 ⟨hy, h⟩
      obtain ⟨z, hz⟩ := List.length_eq_one_iff.1 (Nat.le_antisymm hone (List.length_pos_of_mem (hmem b hb hbeacon)))
      have hx' := hmem x hx hxb
      have hb' := hmem b hb hbeacon
      rw [hz, List.mem_singleton] at hx' hb'
      rw [hx', hb']
  by_cases h : x.isBeacon = true
  · simp [h, hsame.2 h]
  · have hid : x.id ≠ b.id := fun e => h (hsame.1 e)
    simp [h, hid]

/-- R154: a frame of the least urgent level is entered last. -/
theorem enterFrame_last {f : TxFrame} (hf : f.level = 3) (q : List TxFrame) : enterFrame f q = q ++ [f] := by
  unfold enterFrame
  induction q with
  | nil => rfl
  | cons y ys ih =>
    have hy : ¬f.level.toNat < y.level.toNat := by
      rw [hf]
      have := y.level.isLt
      show ¬3 < _
      omega
    simp [enterInOrder, hy, ih]

/-- Settles O50: a deadline takes its frame out; the timer takes the older BEACON out and hands the new one in. -/
theorem deadlineAndBeaconTimer : Obligations.DeadlineAndBeaconTimer := by
  refine ⟨fun i s f hget htaken hdue hcursor => ?_, fun i s f hget hdue => ?_, fun s b hbeacon hlive hdue hone => ?_⟩
  · rw [exec_frameDeadline_due hget hdue, removeLate_of_not_taken htaken, removeFrame_eq (.inl hcursor),
      withoutFrame_no_replay hcursor]
  · show Host.Outcome.next (frameDeadline i s) = _
    simp [frameDeadline, hget, hdue]
  · intro left f
    have hremoved : removeOldBeacon s = left := by
      unfold removeOldBeacon
      simp only [left]
      cases s.line.queue.find? TxFrame.isBeacon with
      | none => rfl
      | some x => exact removeFrame_eq (.inr hlive) x.id
    have hfields : left = { s with
        bind := { s.bind with cursor := left.bind.cursor }
        line := { s.line with queue := left.line.queue, nextId := left.line.nextId } } := by
      simp only [left]
      cases s.line.queue.find? TxFrame.isBeacon with
      | none => rfl
      | some x => exact withoutFrame_fields s x.id
    have hnone : left.line.queue.filter TxFrame.isBeacon = [] := by
      simp only [left]
      cases hfind : s.line.queue.find? TxFrame.isBeacon with
      | none => exact List.filter_eq_nil_iff.2 (List.find?_eq_none.1 hfind)
      | some x =>
        exact withoutFrame_beacons hone (List.mem_filter.2 ⟨List.mem_of_find?_eq_some hfind, List.find?_some hfind⟩)
    have hsame : left.now = s.now ∧ left.node = s.node ∧ left.sup = s.sup := by
      rw [hfields]
      exact ⟨rfl, rfl, rfl⟩
    obtain ⟨hnow, hnode, hsup⟩ := hsame
    have hframe : newFrame left 3 (.beacon left.working.ds left.working.dm left.working.lanes) (Time.plus left.now 3906) .controller = f := by
      have hsetup : s.node ≠ .setup := by
        intro e
        rw [e] at hlive
        cases hlive
      have hworking : left.working = s.working := by rw [State.working, hsup]
      simp only [newFrame, hnode, if_neg hsetup, hnow, hworking]
      rfl
    have hexec : exec .beaconTimer s = .next (restartBeacon (queueBeacon left)) := by
      show Host.Outcome.next (beaconTimer s) = _
      have hdue' : arrived s.now (Time.plus b Config.beaconTicks) = true := hdue
      simp only [beaconTimer, hbeacon, hlive, hdue', Bool.and_self, if_true, beaconDue, hremoved]
    have hqueued : queuedIn f left.line.queue (queueBeacon left).line.queue := by
      have haccepts : acceptsFrame left.node f.body = true := by
        rw [hnode]
        exact acceptsFrame_of_live hlive _
      have hahead : arrived left.now f.deadline = false := by
        rw [hnow]
        exact arrived_plus s.now 3906 (by decide) (by decide)
      have := queueAfter_queuedIn left.node left.now f left.line.queue haccepts hahead
      rw [← hframe] at this ⊢
      exact this
    have hbeaconLast : left.line.queue.length < 8 → (queueBeacon left).line.queue = left.line.queue ++ [f] := by
      intro hroom
      rw [hqueued.1 hroom, enterFrame_last rfl]
    refine ⟨restartBeacon (queueBeacon left), hexec, ?_, fun hroom => ?_, fun hcursor hdistinct => ?_, ?_⟩
    · rw [restartBeacon_eq]
      exact hqueued
    · rw [restartBeacon_eq]
      refine ⟨?_, hbeaconLast hroom⟩
      show (queueBeacon left).line.queue.filter TxFrame.isBeacon = [f]
      rw [hbeaconLast hroom, List.filter_append, hnone]
      rfl
    · simp only [left]
      cases hfind : s.line.queue.find? TxFrame.isBeacon with
      | none =>
        rw [List.filter_eq_self.2]
        exact fun x hx => by simpa using List.find?_eq_none.1 hfind x hx
      | some x =>
        have hx : x ∈ s.line.queue ∧ x.isBeacon = true := ⟨List.mem_of_find?_eq_some hfind, List.find?_some hfind⟩
        simp only [withoutFrame_no_replay hcursor]
        exact filter_id_eq_filter_beacon hone hx.1 hx.2 hdistinct
    · have hrestart : restartBeacon (queueBeacon left) = { queueBeacon left with line := { (queueBeacon left).line with
          beacon := some s.now } } := by
        rw [restartBeacon_live (by show left.node.live = true; rw [hnode]; exact hlive)]
        show _ = _
        rw [← hnow]
        rfl
      rw [hrestart]
      rfl

/-! ## The line state (R146, R151) -/

theorem LineController.atEnd_of_not_frame {c : LineController} (h : c.state ≠ .frame) : c.atEnd = false := by
  simp [LineController.atEnd, h]

/-- R146: recessive bits are counted in WAIT_IDLE. -/
theorem LineController.readAll_counts (rest : List Bool) (k n : Nat) {c : LineController} (hstate : c.state = .waitIdle n)
    (hk : n + k < 10) :
    LineController.readAll (List.replicate k true ++ rest) c = LineController.readAll rest { c with state := .waitIdle (n + k) } := by
  induction k generalizing n c with
  | zero =>
    have hc : { c with state := .waitIdle n } = c := by rw [← hstate]
    rw [Nat.add_zero, hc]
    rfl
  | succ k ih =>
    have hread : c.read true = { c with state := .waitIdle (n + 1) } := by
      simp only [LineController.read, hstate]
      exact congrArg (fun x => { c with state := x }) (if_pos (by show n + 1 < 10; omega))
    rw [List.replicate_succ, List.cons_append, LineController.readAll,
      if_neg (by rw [LineController.atEnd_of_not_frame (by rw [hstate]; nofun)]; nofun), hread, ih (n + 1) rfl (by omega)]
    congr 3
    omega

/-- R146: recessive bits leave the line READY. -/
theorem LineController.readAll_ready (rest : List Bool) (k : Nat) {c : LineController} (hstate : c.state = .ready) :
    LineController.readAll (List.replicate k true ++ rest) c = LineController.readAll rest c := by
  induction k with
  | zero => rfl
  | succ k ih =>
    have hread : c.read true = c := by simp [LineController.read, hstate]
    rw [List.replicate_succ, List.cons_append, LineController.readAll,
      if_neg (by rw [LineController.atEnd_of_not_frame (by rw [hstate]; nofun)]; nofun), hread, ih]

/-- R146: a frame in reception that goes on has not ended. -/
theorem LineController.atEnd_of_hearing {c : LineController} {r bits : List Bool} (hsend : c.send = .hearing r)
    (hruns : runsOn r.length (r ++ bits)) : c.atEnd = false := by
  have hopen := hruns r.length (Nat.le_refl _) (by simp)
  rw [List.take_left] at hopen
  simp [LineController.atEnd, hsend, SendStatus.held, hopen]

/-- R146: bits of a frame in reception are held until it ends. -/
theorem LineController.readAll_hearing (bits r : List Bool) {c : LineController} (hstate : c.state = .frame)
    (hsend : c.send = .hearing r) (hruns : runsOn r.length (r ++ bits)) :
    LineController.readAll bits c = some { c with send := .hearing (r ++ bits) } := by
  induction bits generalizing r c with
  | nil =>
    rw [LineController.readAll, if_neg (by rw [LineController.atEnd_of_hearing hsend hruns]; nofun), List.append_nil, ← hsend]
  | cons b bits ih =>
    have hread : c.read b = { c with send := .hearing (r ++ [b]) } := by
      simp only [LineController.read, hstate, hsend, SendStatus.hear]
    have happend : r ++ b :: bits = (r ++ [b]) ++ bits := by simp
    have hruns' : runsOn (r ++ [b]).length ((r ++ [b]) ++ bits) := by
      intro k hlow hhigh
      rw [← happend] at hhigh ⊢
      exact hruns k (by rw [List.length_append] at hlow; omega) hhigh
    have hrest := ih (r ++ [b]) (c := { c with send := .hearing (r ++ [b]) }) hstate rfl hruns'
    rw [LineController.readAll, if_neg (by rw [LineController.atEnd_of_hearing hsend hruns]; nofun), hread, hrest, happend]

theorem exec_lineReady {s : State} {bits : List Bool} {c : LineController} (hlistens : s.node.listens = true)
    (hread : LineController.readAll bits s.line = some c) : exec (.lineReady bits) s = .next { s with line := c } := by
  show Host.Outcome.next (lineReady bits s) = _
  simp only [lineReady, hlistens, if_true, hread]
  rfl

/-- Settles O51: bits are counted, start a frame, or are held of it, and a bad frame only ends. -/
theorem lineIdlesAndDiscards : Obligations.LineIdlesAndDiscards := by
  refine ⟨fun s n hlistens hstate hn => ?_, fun s n k hlistens hstate hk => ?_, fun s k bits hlistens hstate hruns => ?_,
    fun s r bits hlistens hstate hsend hruns => ?_, fun s phase hstate => ?_, fun s r bits hlistens hsend => ?_,
    fun bits s hreads hbad => ?_⟩
  · refine exec_lineReady hlistens ?_
    have hsplit : List.replicate (10 - n) true = List.replicate (9 - n) true ++ [true] := by
      rw [← List.replicate_succ', show 9 - n + 1 = 10 - n by omega]
    rw [hsplit, LineController.readAll_counts _ _ n hstate (by omega), show n + (9 - n) = 9 by omega]
    rfl
  · refine exec_lineReady hlistens ?_
    rw [LineController.readAll_counts _ _ n hstate hk]
    rfl
  · refine exec_lineReady hlistens ?_
    have hread : s.line.read false = { s.line with state := .frame, send := .hearing [false] } := by
      simp [LineController.read, hstate]
    rw [LineController.readAll_ready _ _ hstate, LineController.readAll,
      if_neg (by rw [LineController.atEnd_of_not_frame (by rw [hstate]; nofun)]; nofun), hread,
      LineController.readAll_hearing bits [false] rfl rfl hruns]
    rfl
  · exact exec_lineReady hlistens (LineController.readAll_hearing bits r hstate hsend hruns)
  · show Host.Outcome.next (attemptStart phase s) = _
    unfold attemptStart
    split
    · rw [hstate]
      simp
    · rfl
  · simp [readsFrame, hlistens, hsend]
  · show Host.Outcome.next (frameDiscarded bits s) = _
    simp only [frameDiscarded, hreads, hbad, Bool.and_self, if_true]
    rfl

end Sys2Proof.Machine
end


/-! # The binding table: proposals, HEAT, notice runs and the store (sections 04, 05) -/

section
namespace Sys2Proof.Machine

open Sys2Proof.Safety

/-! ## Proposals (R51 to R53, R61) -/

theorem Proposal.newer_iff {p : Proposal} {b : Binding} : p.newer b = true ↔
    b.stamp.toNat < p.stamp.toNat ∨ (p.stamp = b.stamp ∧ p.origin.toNat < b.origin.toNat) := by
  simp [Proposal.newer]

/-- R39, R53: what a newer proposal does. -/
theorem applyProposal_eq (s : State) (p : Proposal) : applyProposal s p = { s with
    handsets := handsetsRebound s p.car p.handset
    bind := { s.bind with entries := p.entries s.bind.entries, unsaved := true } } := by
  have hhandsets := applyProposal_handsets s p
  obtain ⟨hs, h⟩ := applyProposal_frame s p
  rw [h] at hhandsets ⊢
  rw [show hs = _ from hhandsets]

theorem Proposal.entries_car (p : Proposal) (t : CodeTable Binding) : (p.entries t).get p.car = p.entry (t.get p.car) :=
  CodeTable.get_set_self _ _ _

/-- R53: the entries of the other cars: one of the same handset becomes FREE. -/
theorem Proposal.entries_other (p : Proposal) (t : CodeTable Binding) {d : Car} (hd : d ≠ p.car) :
    (p.entries t).get d = if p.handset.isSome = true ∧ (t.get d).handset = p.handset
      then { t.get d with handset := none, standing := .empty } else t.get d := by
  rw [Proposal.entries, CodeTable.get_set_ne _ _ hd, CodeTable.get_map]
  rfl

/-- The bind condition reads one coded stall. -/
theorem codedStalls_lanes (s : State) :
    (codedStalls s).map Prod.fst = Lane.all.filter (fun l => (s.gates.get l).codedStall.isSome) := by
  unfold codedStalls
  induction Lane.all with
  | nil => rfl
  | cons l ls ih =>
    cases h : (s.gates.get l).codedStall with
    | none => simp [h, ih]
    | some c => simp [h, ih]

theorem codedStalls_eq_single {s : State} {l : Lane} {c : CarCode}
    (honly : Lane.all.filter (fun l => (s.gates.get l).codedStall.isSome) = [l]) (hcode : (s.gates.get l).codedStall = some c) :
    codedStalls s = [(l, c)] := by
  rw [← codedStalls_lanes, List.map_eq_singleton_iff] at honly
  obtain ⟨⟨m, d⟩, hstalls, rfl⟩ := honly
  have := mem_codedStalls.1 (hstalls ▸ List.mem_singleton_self (m, d))
  rw [hstalls, Option.some.inj (this.symm.trans hcode)]

theorem nextStamp_eq (n : BitVec 16) : nextStamp n = if n.toNat < 65535 then n + 1 else n := by
  unfold nextStamp
  by_cases h : n = 65535
  · rw [if_pos h, h]
    rfl
  · have hne : n.toNat ≠ 65535 := fun e => h (BitVec.eq_of_toNat_eq e)
    have := n.isLt
    rw [if_neg h, if_pos (by omega)]

/-- R55, R56: what the local rule wants of a gesture: the handset and the kept flag. -/
def wantedBinding (b : Binding) (h : HandsetAddr) (g : Gesture) : Option (Option HandsetAddr × Bool) :=
  match g with
  | .bind => if b.handset = some h ∧ b.kept = false then none else some (some h, false)
  | .bindKept => if b.handset = some h ∧ b.kept = true then none else some (some h, true)
  | .release => if b.handset = some h then some (none, false) else none
  | .none => none

/-- R55, R56: the proposal for what is wanted. -/
def wantedProposal (own : NodeAddr) (c : Car) (b : Binding) (w : Option HandsetAddr × Bool) : Proposal :=
  { car := c, handset := w.1, stamp := nextStamp b.stamp, origin := own, kept := w.2 }

theorem localProposal_eq (own : NodeAddr) (c : Car) (b : Binding) (h : HandsetAddr) (g : Gesture) :
    localProposal own c b h g = (wantedBinding b h g).map (wantedProposal own c b) := by
  unfold localProposal wantedBinding wantedProposal
  cases g with
  | none => rfl
  | bind => by_cases hb : b.handset = some h ∧ b.kept = false <;> simp [hb]
  | bindKept => by_cases hb : b.handset = some h ∧ b.kept = true <;> simp [hb]
  | release => by_cases hb : b.handset = some h <;> simp [hb]

/-- R54: the judgement of one coded stall and one gesturing handset. -/
theorem judgeLocal_single {s : State} {l : Lane} {c : Car} {e : HandsetEntry} (hlive : s.node.live = true)
    (hstalls : codedStalls s = [(l, c.code)]) (hgesturing : s.handsets.filter (fun e => e.gesturing) = [e]) :
    (localProposal s.working.address c (s.bind.entries.get c) e.address e.freshGesture = none → judgeLocal s = s) ∧
    ∀ p, localProposal s.working.address c (s.bind.entries.get c) e.address e.freshGesture = some p →
      judgeLocal s = localBind s l p := by
  constructor
  · intro h
    simp only [judgeLocal, hlive, if_true, hstalls, hgesturing, Car.ofCode_code, h]
  · intro p h
    simp only [judgeLocal, hlive, if_true, hstalls, hgesturing, Car.ofCode_code, h]

theorem Gate.isStalled_of_coded {g : Gate} {c : CarCode} (h : g.codedStall = some c) : g.isStalled = true := by
  unfold Gate.codedStall at h
  unfold Gate.isStalled
  match hs : g.state with
  | .stall .. => rfl
  | .idle => rw [hs] at h; cases h
  | .open _ => rw [hs] at h; cases h

/-- R55 to R58, R60: a newer local proposal is applied, sent and noticed. -/
theorem localBind_newer {s : State} {l : Lane} {p : Proposal} {c : CarCode} (hlive : s.node.live = true)
    (hcoded : (s.gates.get l).codedStall = some c) (hnewer : p.newer (s.bind.entries.get p.car) = true) :
    localBind s l p = { s with
      gates := s.gates.set l ((s.gates.get l).request s.now { code := p.car.code, handset := p.handset.getD 0 })
      handsets := handsetsRebound s p.car p.handset
      bind := { s.bind with
        entries := p.entries s.bind.entries, unsaved := true
        runs := s.bind.runs.set l (some { car := p.car, count := 1, nextAt := Time.plus s.now 781 }) }
      line := { s.line with
        queue := queueAfter s.node s.now
          { id := s.line.nextId, level := 1, originator := s.working.address,
            body := .bind { code := p.car.code, handset := p.handset.getD 0, stamp := p.stamp, origin := p.origin, kept := p.kept },
            deadline := Time.plus s.now 7813, queued := s.now, owner := .bindingTable } s.line.queue
        nextId := s.line.nextId + 1 } } := by
  have hsetup : s.node ≠ .setup := by
    intro e
    rw [e] at hlive
    cases hlive
  have hentry := p.entries_car s.bind.entries
  rw [localBind, if_pos hnewer, applyProposal_eq]
  simp only [queueLiveBind, handIn, newFrame, if_neg hsetup, startRun, requestNotice, runNotice, bindBody, hentry, hlive,
    Gate.isStalled_of_coded hcoded, Bool.and_self, if_true]
  rfl

/-- R31, R33: a notice that is asked for waits for the one in progress, or starts. -/
theorem Gate.request_eq (g : Gate) (now : Time) (n : Notice) : g.request now n = if g.sending.isSome then { g with waiting := some n }
    else { g with sending := some { notice := n, ends := Time.plus now n.ticks },
                  blanking := some (Time.plus (Time.plus now n.ticks) 4), decoder := .hunt } := by
  unfold Gate.request
  cases g.sending <;> rfl

/-- Settles O29: a received proposal is judged by its stamp, and the local rule makes and judges its own. -/
theorem newerProposalIsApplied : Obligations.NewerProposalIsApplied := by
  refine ⟨fun bits phase s f hf hlive => ?_, fun s h => ?_, fun s l c e hlive hlanes hcoded hone => ?_⟩
  · have hexec : ∀ t, takeBind f (stampOf s phase .bind) (heardOnly s f) = t → exec (.bindReceived bits phase) s = .next t := by
      rintro t rfl
      show Host.Outcome.next (receiveFrame .bind takeBind bits phase s) = _
      rw [receiveFrame_heardOnly hf (by decide) (watching_of_live hlive)]
    refine ⟨fun hnone => hexec _ ?_, fun p hp => ?_⟩
    · simp only [takeBind, hnone]
    · intro b newer
      have htake : takeBind f (stampOf s phase .bind) (heardOnly s f) = judgeProposal (heardOnly s f) p := by
        simp only [takeBind, hp]
        exact if_pos hlive
      have hnewer : p.newer ((heardOnly s f).bind.entries.get p.car) = true ↔ newer := Proposal.newer_iff
      refine ⟨fun hold => hexec _ (htake.trans (if_neg fun h => hold (hnewer.1 h))), fun hnew => ?_⟩
      refine ⟨_, hexec _ (htake.trans ((if_pos (hnewer.2 hnew)).trans (applyProposal_eq _ _))), ?_, fun d hd => ?_, rfl⟩
      · exact p.entries_car s.bind.entries
      · exact p.entries_other s.bind.entries hd
  · rcases judgeLocal_cases s with hs | ⟨l, code, car, e, p, hlive, hstalls, hgesturing, _⟩
    · exact hs
    · rcases h with h | h | h
      · rw [hlive] at h
        cases h
      · rw [← codedStalls_lanes, hstalls] at h
        exact absurd rfl h
      · exact absurd (congrArg List.length hgesturing) h
  · intro b wanted stamp newer
    have hwanted : wanted = wantedBinding b e.address e.freshGesture := by
      unfold wantedBinding
      cases hg : e.freshGesture <;> simp only [wanted, hg]
    have hstamp : nextStamp b.stamp = stamp := nextStamp_eq _
    have hjudge := judgeLocal_single hlive (codedStalls_eq_single hlanes hcoded) hone
    rw [localProposal_eq, ← hwanted] at hjudge
    obtain ⟨hquietly, hjudged⟩ := hjudge
    have hnewer : ∀ w, (wantedProposal s.working.address c b w).newer b = true ↔ newer := by
      intro w
      rw [Proposal.newer_iff]
      simp only [wantedProposal, hstamp]
      rfl
    refine ⟨fun hquiet => ?_, fun h k hw hnew => ?_⟩
    · cases hw : wanted with
      | none => exact hquietly (by rw [hw]; rfl)
      | some w =>
        have hold : ¬newer := hquiet.resolve_left (by rw [hw]; nofun)
        exact (hjudged _ (by rw [hw]; rfl)).trans (if_neg fun hn => hold ((hnewer w).1 hn))
    · intro t g n
      obtain ⟨p, hp⟩ : ∃ p, p = wantedProposal s.working.address c b (h, k) := ⟨_, rfl⟩
      have hcar : p.car = c ∧ p.handset = h ∧ p.stamp = stamp ∧ p.origin = s.working.address ∧ p.kept = k := by
        rw [hp]
        exact ⟨rfl, rfl, hstamp, rfl, rfl⟩
      obtain ⟨hpcar, hph, hpstamp, hporigin, hpkept⟩ := hcar
      have ht : t = localBind s l p := hjudged p (by rw [hw, hp]; rfl)
      have hpnewer : p.newer (s.bind.entries.get p.car) = true := by
        rw [hpcar, hp]
        exact (hnewer _).2 hnew
      have hfull := localBind_newer hlive hcoded hpnewer
      rw [← ht, hpcar, hph, hpstamp, hporigin, hpkept] at hfull
      have hentries : t.bind.entries = p.entries s.bind.entries := by rw [hfull]
      refine ⟨?_, fun d hd => ?_, by rw [hfull], by rw [hfull], by rw [hfull, Gate.request_eq], ?_, by rw [hfull], ?_⟩
      · have hentry := p.entries_car s.bind.entries
        rw [hpcar] at hentry
        rw [hentries, hentry, Proposal.entry, hph, hpstamp, hporigin, hpkept]
      · rw [hentries, p.entries_other s.bind.entries (by rw [hpcar]; exact hd), hph]
      · have hqueue := congrArg (fun u => u.line.queue) hfull
        simp only at hqueue
        rw [hqueue]
        exact queueAfter_queuedIn _ _ _ _ (acceptsFrame_of_live hlive _) (arrived_plus s.now 7813 (by decide) (by decide))
      · rw [hfull]

/-! ## The store (R66, R166) -/

/-- Settles O34: the branches of the two commands that end work at the store. -/
theorem storeWorkCompletes : Obligations.StoreWorkCompletes := by
  refine ⟨fun s t hsave hdue => ?_, fun s w hwrite hdue => ?_⟩
  · have hdue' : arrived s.now (Time.plus t Config.saveTicks) = true := hdue
    show Host.Outcome.next (saveComplete s) = _
    simp only [saveComplete, hsave, hdue', if_true]
  · have hdue' : arrived s.now (Time.plus w.since Config.writeTicks) = true := hdue
    show Host.Outcome.next (configWriteComplete s) = _
    simp only [configWriteComplete, hwrite, hdue', if_true]

end Sys2Proof.Machine
end


/-! # Notice runs (R58, R59) and HEAT (R47, R64, R172) -/

section
namespace Sys2Proof.Machine

open Sys2Proof.Safety

/-! ## A run's next notice -/

/-- R31, R58, R59: a gate that has begun a run's next notice, its decoder's frame set aside for this tick. -/
def Gate.renoticed (g : Gate) (now : Time) (n : Notice) : Gate :=
  { g with sending := some { notice := n, ends := Time.plus now n.ticks }, blanking := some (Time.plus (Time.plus now n.ticks) 4),
           decoder := .hunt, dropped := some g.decoder }

/-- R31, R58: a run's next notice waits for the one in progress, or starts. -/
theorem Gate.requestNext_eq (g : Gate) (now : Time) (n : Notice) : g.requestNext now n =
    if g.sending.isSome then { g with waiting := some n }
    else { g with sending := some { notice := n, ends := Time.plus now n.ticks },
                  blanking := some (Time.plus (Time.plus now n.ticks) 4), decoder := .hunt,
                  dropped := if g.blanking.isSome then g.dropped else some g.decoder } := by
  rw [Gate.requestNext, Gate.request_eq]
  cases g.sending with
  | some d => rfl
  | none => cases g.blanking <;> rfl

theorem Gate.requestNext_quiet {g : Gate} (hsend : g.sending = none) (hblank : g.blanking = none) (now : Time) (n : Notice) :
    g.requestNext now n = g.renoticed now n := by
  rw [Gate.requestNext_eq, hsend, hblank]
  rfl

/-- R58: the notice that a run asks for, and how the run goes on. -/
def NoticeRun.next (r : NoticeRun) : Option NoticeRun :=
  if r.count + 1 < 40 then some { r with count := r.count + 1, nextAt := Time.plus r.nextAt 781 } else none

theorem exec_noticeRunRepeat_due {l : Lane} {s : State} {r : NoticeRun} (hrun : s.bind.runs.get l = some r) (hlive : s.node.live = true)
    (hdue : arrived s.now r.nextAt = true) : exec (.noticeRunRepeat l) s = .next { s with
      gates := if (s.gates.get l).isStalled then s.gates.set l ((s.gates.get l).requestNext s.now (runNotice s r.car)) else s.gates
      bind := { s.bind with runs := s.bind.runs.set l (NoticeRun.next r) } } := by
  show Host.Outcome.next (noticeRunRepeat l s) = _
  simp only [noticeRunRepeat, hrun, hlive, hdue, Bool.and_self, if_true, repeatRun, requestNext, Bool.true_and]
  cases (s.gates.get l).isStalled <;> rfl

/-- R27, R33, R59: the edge of the tick in which the notice began is read with the frame set aside, and blanking goes on. -/
theorem Gate.accept_renoticed {g : Gate} {p : Passage} {sc : Option StallCode} {dec : Option CarCode} (h : g.state = .stall p sc dec)
    (now : Time) (n : Notice) (lit : Bool) : ∃ sc' dec', (g.renoticed now n).accept now lit = { g.renoticed now n with
        level := some lit, previous := some lit, gap := 0, state := .stall { p with last := now } sc' dec', dropped := none } ∧
      (frameCode (g.decoder.edge lit (Time.diff p.last now)).2 = none → dec' = dec) ∧
      ∀ c, frameCode (g.decoder.edge lit (Time.diff p.last now)).2 = some c → dec' = nextDecoded dec (StallCode.read sc c) := by
  obtain ⟨sc', dec', hedge, hnone, hsome⟩ := Gate.edge_stall
    (g := { (g.renoticed now n).unblanked with level := some lit, previous := some lit }) (p := p) (sc := sc) (dec := dec) h now lit
  refine ⟨sc', dec', ?_, fun hf => (hnone hf).2, fun c hf => (hsome c hf).2⟩
  rw [Gate.accept, hedge]
  rfl

theorem exec_irEdge_renoticed {l : Lane} {x y : Bool} {t : State} (hblank : (t.gates.get l).blanking.isSome = true)
    (h : gateWorks t l = true → isEdge (t.gates.get l) x y = true → (t.gates.get l).changesCode t.now y = false) :
    exec (.irEdge l x y) t = .next t := by
  rw [exec_irEdge, irEdge]
  simp only [hblank, if_true]
  refine congrArg _ ?_
  split
  · next hworks =>
    split
    · next hedge =>
      rw [Bool.and_eq_true] at hedge
      rw [h hworks hedge.1] at hedge
      exact absurd hedge.2 nofun
    · rfl
  · rfl

/-- R54: with no gesturing handset the judgement changes nothing. -/
theorem judgeLocal_of_no_gesture {s : State} (h : ∀ e ∈ s.handsets, e.freshGesture = .none) : judgeLocal s = s := by
  rcases judgeLocal_cases s with hs | ⟨_, _, _, e, _, _, _, hgesturing, _⟩
  · exact hs
  · have he : e ∈ s.handsets.filter (fun e => e.gesturing) := hgesturing ▸ List.mem_singleton_self e
    obtain ⟨hmem, hfresh⟩ := List.mem_filter.1 he
    simp [HandsetEntry.gesturing, h e hmem] at hfresh

/-- R59: another car's code ends the run of a gate. -/
theorem endRunOnCode_other {s : State} {l : Lane} {c : CarCode} (h : ∀ r, s.bind.runs.get l = some r → r.car.code ≠ c) :
    endRunOnCode s l c = s.setRun l none := by
  unfold endRunOnCode
  cases hr : s.bind.runs.get l with
  | none =>
    have hset : s.bind.runs.set l none = s.bind.runs := by rw [← hr, PerLane.set_get]
    simp only [State.setRun, hset]
  | some r => exact if_neg (h r hr)

/-- R27, R59: the second frame of a code makes it the decoded code. -/
theorem nextDecoded_second (dec : Option CarCode) (c : CarCode) :
    nextDecoded dec (StallCode.read (some { code := c, frames := 1 }) c) = some c := by
  simp [nextDecoded, StallCode.read]

/-- R27: a decoded code that changes has had its second frame. -/
theorem second_of_nextDecoded {sc : Option StallCode} {dec : Option CarCode} {c d : CarCode}
    (h : nextDecoded dec (StallCode.read sc c) = some d) (hdec : dec ≠ some d) : d = c ∧ sc = some { code := c, frames := 1 } := by
  unfold nextDecoded at h
  split at h
  · next htwo =>
    rw [StallCode.read_code] at h
    refine ⟨(Option.some.inj h).symm, ?_⟩
    unfold StallCode.read at htwo
    split at htwo
    · simp at htwo
    · next y =>
      split at htwo
      · next hcode =>
        have hframes : y.frames = 1 := by simp only at htwo; omega
        rw [← hcode, ← hframes]
      · simp at htwo
  · exact absurd h hdec

/-- Settles O33: the gate takes the notice; the edge of that tick is read only where it changes the code to another car's. -/
theorem noticeRunRepeats : Obligations.NoticeRunRepeats := by
  refine ⟨fun l s r hrun hlive hdue => ?_, fun l x s r p c dec hrun hlive hdue hworks hsend hblank hlevel hstall hdec hcar hframe hquiet => ?_,
    fun l x y s r p sc dec hrun hlive hdue hsend hblank hstall hother => ?_⟩
  · intro n g
    rw [exec_noticeRunRepeat_due hrun hlive hdue, Gate.requestNext_eq]
    rfl
  · have hstalled : (s.gates.get l).isStalled = true := by simp [Gate.isStalled, hstall]
    have hexec := exec_noticeRunRepeat_due hrun hlive hdue
    rw [hstalled, if_pos rfl, Gate.requestNext_quiet hsend hblank] at hexec
    obtain ⟨t, ht⟩ : ∃ t : State, t = { s with
      gates := s.gates.set l ((s.gates.get l).renoticed s.now (runNotice s r.car))
      bind := { s.bind with runs := s.bind.runs.set l (NoticeRun.next r) } } := ⟨_, rfl⟩
    rw [← ht] at hexec
    have hgate : t.gates.get l = (s.gates.get l).renoticed s.now (runNotice s r.car) := by rw [ht]; exact PerLane.get_set_self _ _ _
    have hnow : t.now = s.now := by rw [ht]
    obtain ⟨sc', dec', haccept, _, hsome⟩ := Gate.accept_renoticed hstall s.now (runNotice s r.car) x
    have hdec' : dec' = some c := (hsome c hframe).trans (nextDecoded_second dec c)
    obtain ⟨g, hg⟩ : ∃ g, g = Gate.accept ((s.gates.get l).renoticed s.now (runNotice s r.car)) s.now x := ⟨_, rfl⟩
    rw [← hg] at haccept
    have hcoded : g.codedStall = some c := by
      rw [haccept]
      exact hdec'
    have hold : (t.gates.get l).codedStall = dec := by
      rw [hgate]
      simp [Gate.codedStall, Gate.renoticed, hstall]
    have hchanges : (t.gates.get l).changesCode t.now x = true := by
      have hne : r.car.code ≠ c := fun e => hcar e.symm
      have hacc : ((t.gates.get l).accept t.now x).codedStall = some c := by rw [hgate, hnow, ← hg]; exact hcoded
      have hdropped : (t.gates.get l).dropped = some (s.gates.get l).decoder := by rw [hgate]; rfl
      have hsending : (t.gates.get l).sending = some { notice := runNotice s r.car, ends := Time.plus s.now (runNotice s r.car).ticks } := by
        rw [hgate]; rfl
      simp only [Gate.changesCode, hdropped, hsending, hacc, hold, runNotice]
      simp [hdec, hne]
    have hedge : irEdge l x x t = acceptEdge t l x := by
      have hw : gateWorks t l = true := by rw [ht]; exact hworks
      have hb : (t.gates.get l).blanking.isSome = true := by rw [hgate]; rfl
      have he : isEdge (t.gates.get l) x x = true := by
        rw [hgate]
        simp [isEdge, Gate.renoticed, hlevel]
      simp only [irEdge, hw, hb, he, hchanges, Bool.and_self, if_true]
    obtain ⟨v, hv⟩ : ∃ v : State, v = t.setGate l g := ⟨_, rfl⟩
    have hvgate : v.gates.get l = g := by rw [hv]; exact PerLane.get_set_self _ _ _
    have haccepted : acceptEdge t l x = (occupancyCode v l c).setRun l none := by
      have hreport : acceptEdge t l x = reportChange v l dec := by
        rw [acceptEdge, hold, hgate, hnow, ← hg, ← hv]
      have hvlive : (occupancyCode v l c).node.live = true := by rw [hv, ht]; exact hlive
      have hruns : ∀ q, (occupancyCode v l c).bind.runs.get l = some q → q.car.code ≠ c := by
        intro q hq
        rw [hv, ht] at hq
        have hq' : NoticeRun.next r = some q := (PerLane.get_set_self _ _ _).symm.trans hq
        unfold NoticeRun.next at hq'
        split at hq'
        · cases hq'
          exact fun e => hcar e.symm
        · cases hq'
      have hgestures : ∀ e ∈ ((occupancyCode v l c).setRun l none).handsets, e.freshGesture = .none := by
        rw [hv, ht]
        exact hquiet
      rw [hreport, reportChange, hvgate, hcoded]
      simp only [if_neg hdec, reportCode, codeReported, hvlive, if_true, endRunOnCode_other hruns]
      exact judgeLocal_of_no_gesture hgestures
    refine ⟨t, (occupancyCode v l c).setRun l none, hexec, ?_, ?_, ?_, ?_, ?_, ?_, ?_, ?_⟩
    · rw [exec_irEdge, hedge, haccepted]
    · show (v.gates.get l).codedStall = _
      rw [hvgate, hcoded]
    · exact PerLane.get_set_self _ _ _
    · show (v.gates.get l).sending = _
      rw [hvgate, haccept, hgate]
    · rw [hgate]
      rfl
    · show (v.gates.get l).blanking = _
      rw [hvgate, haccept, hgate]
    · show (v.gates.get l).level = _
      rw [hvgate, haccept]
    · show (v.gates.get l).decoder = _
      rw [hvgate, haccept]
      rfl
  · have hstalled : (s.gates.get l).isStalled = true := by simp [Gate.isStalled, hstall]
    have hexec := exec_noticeRunRepeat_due hrun hlive hdue
    rw [hstalled, if_pos rfl, Gate.requestNext_quiet hsend hblank] at hexec
    obtain ⟨t, ht⟩ : ∃ t : State, t = { s with
      gates := s.gates.set l ((s.gates.get l).renoticed s.now (runNotice s r.car))
      bind := { s.bind with runs := s.bind.runs.set l (NoticeRun.next r) } } := ⟨_, rfl⟩
    rw [← ht] at hexec
    have hgate : t.gates.get l = (s.gates.get l).renoticed s.now (runNotice s r.car) := by rw [ht]; exact PerLane.get_set_self _ _ _
    have hnow : t.now = s.now := by rw [ht]
    have hblanks : (t.gates.get l).blanking.isSome = true := by rw [hgate]; rfl
    refine ⟨t, hexec, hblanks, exec_irEdge_renoticed hblanks fun _ hedge => ?_⟩
    rw [hgate, hnow]
    rw [hgate] at hedge
    have hsame : x = y ∧ (s.gates.get l).level = some (!y) := by
      have hlevel : ((s.gates.get l).renoticed s.now (runNotice s r.car)).level = (s.gates.get l).level := rfl
      unfold isEdge at hedge
      rw [hlevel] at hedge
      cases hl : (s.gates.get l).level with
      | none => rw [hl] at hedge; cases hedge
      | some b => rw [hl] at hedge; revert hedge; cases x <;> cases y <;> cases b <;> decide
    obtain ⟨hxy, hlevel⟩ := hsame
    obtain ⟨sc', dec', haccept, hnone, hsome⟩ := Gate.accept_renoticed hstall s.now (runNotice s r.car) y
    have hcoded : (((s.gates.get l).renoticed s.now (runNotice s r.car)).accept s.now y).codedStall = dec' := by rw [haccept]; rfl
    have hold : ((s.gates.get l).renoticed s.now (runNotice s r.car)).codedStall = dec := by
      simp [Gate.codedStall, Gate.renoticed, hstall]
    unfold Gate.changesCode
    rw [hcoded, hold]
    cases hd : dec' with
    | none => rfl
    | some d =>
      simp only [Gate.renoticed, runNotice, Bool.and_eq_false_iff, decide_eq_false_iff_not, not_not]
      by_contra hchanged
      rw [not_or] at hchanged
      obtain ⟨hdec, hcar⟩ := hchanged
      cases hframe : frameCode ((s.gates.get l).decoder.edge y (Time.diff p.last s.now)).2 with
      | none => exact hdec ((hnone hframe).symm.trans hd)
      | some c =>
        obtain ⟨rfl, hsc⟩ := second_of_nextDecoded ((hsome c hframe).symm.trans hd) hdec
        rcases hother d hframe with h | h | h | h | h
        · exact h hxy
        · exact h hlevel
        · exact hcar h.symm
        · exact hdec h
        · exact h hsc

/-! ## HEAT (R47, R64, R158, R172) -/

/-- R39: an unbound entry of that handset is stale. -/
def goneStale (s : State) (a : HandsetAddr) : Bool := !isBound s a && (handsetEntry s a).any (isStale s.now)

/-- R39: told of a handset left unbound, the port removes its entry where it is stale. -/
theorem toldUnbound_eq (s : State) (a : HandsetAddr) : toldUnbound s a =
    { s with handsets := s.handsets.filter (fun e => !(decide (e.address = a) && goneStale s a)) } := by
  unfold toldUnbound goneStale
  have hkeep : ∀ b : Bool, b = false → s.handsets.filter (fun e => !(decide (e.address = a) && b)) = s.handsets := by
    rintro b rfl
    exact List.filter_eq_self.2 fun e _ => by simp
  cases hbound : isBound s a with
  | true => simp only [if_true, Bool.not_true, Bool.false_and, hkeep false rfl]
  | false =>
    cases hentry : handsetEntry s a with
    | none => simp
    | some e =>
      cases hstale : isStale s.now e with
      | false => simp [hstale]
      | true =>
        simp only [Option.any_some, hstale, Bool.not_false, Bool.and_true]
        simp [State.dropHandset]

/-- The removal of another handset's entries leaves an entry. -/
theorem goneStale_after {s : State} {a b : HandsetAddr} (h : b ≠ a ∨ goneStale s a = false) :
    goneStale (toldUnbound s a) b = goneStale s b := by
  have hentry : handsetEntry (toldUnbound s a) b = handsetEntry s b := by
    rw [toldUnbound_eq]
    unfold handsetEntry
    rw [List.find?_filter]
    congr 1
    funext e
    by_cases he : e.address = b
    · rcases h with h | h
      · simp [he, h]
      · simp [he, h]
    · simp [he]
  unfold goneStale
  rw [hentry, toldUnbound_eq]
  rfl

/-- R39, R64: told of several handsets, the port removes the stale entries of those that are unbound. -/
theorem foldl_toldUnbound (as : List HandsetAddr) (s : State) : as.foldl toldUnbound s =
    { s with handsets := s.handsets.filter (fun e => !(decide (e.address ∈ as) && goneStale s e.address)) } := by
  induction as generalizing s with
  | nil =>
    have hkeep : s.handsets.filter (fun e => !(decide (e.address ∈ ([] : List HandsetAddr)) && goneStale s e.address)) = s.handsets :=
      List.filter_eq_self.2 fun e _ => by simp
    simp only [List.foldl_nil, hkeep]
  | cons a as ih =>
    have hfilter : (toldUnbound s a).handsets.filter (fun e => !(decide (e.address ∈ as) && goneStale (toldUnbound s a) e.address)) =
        s.handsets.filter (fun e => !(decide (e.address ∈ a :: as) && goneStale s e.address)) := by
      have hhandsets : (toldUnbound s a).handsets = s.handsets.filter (fun e => !(decide (e.address = a) && goneStale s a)) := by
        rw [toldUnbound_eq]
      rw [hhandsets, List.filter_filter]
      refine List.filter_congr fun e _ => ?_
      by_cases hgone : e.address = a ∧ goneStale s a = true
      · obtain ⟨rfl, hgone⟩ := hgone
        simp [hgone]
      · have hother : e.address ≠ a ∨ goneStale s a = false := by
          by_cases ha : e.address = a
          · exact .inr (by simpa using fun h => hgone ⟨ha, h⟩)
          · exact .inl ha
        rw [goneStale_after hother]
        rcases hother with ha | ha
        · simp [ha]
        · by_cases he : e.address = a
          · simp [he, ha]
          · simp [he]
    rw [List.foldl_cons, ih, hfilter, toldUnbound_eq]

theorem mem_heatFreed {t : CodeTable Binding} {h : HandsetAddr} :
    h ∈ heatFreed t ↔ ∃ c, (t.get c).handset = some h ∧ (t.get c).kept = false := by
  unfold heatFreed
  rw [List.mem_filterMap]
  constructor
  · rintro ⟨b, hb, hh⟩
    obtain ⟨i, hi, rfl⟩ := List.mem_iff_getElem.1 hb
    refine ⟨⟨i, by have := t.size_eq; omega⟩, ?_⟩
    split at hh
    · cases hh
    · next hkept => exact ⟨hh, Bool.eq_false_iff.2 hkept⟩
  · rintro ⟨c, hh, hkept⟩
    refine ⟨t.get c, List.getElem_mem _, ?_⟩
    rw [if_neg (by rw [hkept]; nofun), hh]

/-- R64: an entry after a HEAT. -/
theorem Binding.heated_eq (b : Binding) :
    b.heated = { b with handset := if b.kept then b.handset else none, standing := .empty } := by
  unfold Binding.heated Binding.freed
  cases hh : b.handset with
  | none => simp
  | some h => cases hk : b.kept <;> simp

/-- R64: after a HEAT a handset is bound where one of its entries was kept. -/
theorem isBound_heated {s : State} {u : Bool} {h : HandsetAddr} :
    isBound { s with bind := { s.bind with entries := s.bind.entries.map Binding.heated, unsaved := u } } h = false ↔
      ∀ c, (s.bind.entries.get c).handset = some h → (s.bind.entries.get c).kept = false := by
  rw [isBound_eq_false]
  refine forall_congr' fun c => ?_
  show ((s.bind.entries.map Binding.heated).get c).handset ≠ some h ↔ _
  rw [CodeTable.get_map, Binding.heated_eq]
  cases (s.bind.entries.get c).kept <;> simp

/-- R39, R47, R64: what HEAT does at the node. -/
theorem applyHeat_eq (s : State) : applyHeat s = { s with
    handsets := (s.handsets.filter (fun e =>
        !(decide (e.address ∈ heatFreed s.bind.entries) &&
          goneStale { s with bind := { s.bind with
            entries := s.bind.entries.map Binding.heated, unsaved := s.bind.unsaved || !(heatFreed s.bind.entries).isEmpty } }
            e.address))).map (fun e => { e with request := none })
    bind := { s.bind with
      entries := s.bind.entries.map Binding.heated, unsaved := s.bind.unsaved || !(heatFreed s.bind.entries).isEmpty } } := by
  simp only [applyHeat, heatRequests, heatBindings, foldl_toldUnbound]

/-- R39, R64: the handsets that a HEAT leaves bound to no car, as the statement has them. -/
theorem heatFreed_goneStale (s : State) (u : Bool) (a : HandsetAddr) :
    (decide (a ∈ heatFreed s.bind.entries) &&
      goneStale { s with bind := { s.bind with entries := s.bind.entries.map Binding.heated, unsaved := u } } a) =
    ((decide (∃ c, (s.bind.entries.get c).handset = some a) &&
      decide (∀ c, (s.bind.entries.get c).handset = some a → (s.bind.entries.get c).kept = false)) &&
      (handsetEntry s a).any (fun x => arrived s.now (Time.plus x.lastHeard 31250))) := by
  have hbound := isBound_heated (s := s) (u := u) (h := a)
  unfold goneStale
  rw [Bool.eq_iff_iff]
  simp only [Bool.and_eq_true, Bool.not_eq_true', hbound, decide_eq_true_eq, mem_heatFreed, and_assoc]
  constructor
  · rintro ⟨⟨c, hc, _⟩, hall, hstale⟩
    exact ⟨⟨c, hc⟩, hall, hstale⟩
  · rintro ⟨⟨c, hc⟩, hall, hstale⟩
    exact ⟨⟨c, hc, hall c hc⟩, hall, hstale⟩

theorem exec_heatPress_due {s : State} {r : Time} (hreleased : s.sup.heatReleased = some r)
    (hdue : arrived s.now (Time.plus r 156) = true) (hoff : s.node ≠ .off) :
    exec .heatPress s = .next (heatPressTaken { s with sup := { s.sup with heatReleased := none } }) := by
  show Host.Outcome.next (heatPress s) = _
  simp only [heatPress, hreleased]
  exact congrArg _ (if_pos ⟨hoff, hdue⟩)

/-- Settles O31: a HEAT that is received or pressed is applied to the tables, and a press is sent too. -/
theorem heatFreesUnkeptBindings : Obligations.HeatFreesUnkeptBindings := by
  unfold Obligations.HeatFreesUnkeptBindings
  intro heated
  have happlied : ∀ s u : State, u.bind = s.bind → u.handsets = s.handsets → u.now = s.now →
      u = { s with sup := u.sup, occ := { s.occ with up := u.occ.up, down := u.occ.down }, line := u.line } →
      heated s (applyHeat u) := by
    intro s u hbind hhandsets hnow hframe
    rw [applyHeat_eq]
    refine ⟨fun c => ?_, ?_, ?_, ?_⟩
    · simp only [hbind]
      rw [CodeTable.get_map, Binding.heated_eq]
    · simp only [hbind, Bool.or_eq_true, Bool.not_eq_true', List.isEmpty_eq_false_iff_exists_mem, mem_heatFreed]
      refine or_congr Iff.rfl ⟨?_, ?_⟩
      · rintro ⟨h, c, hc, hkept⟩
        exact ⟨c, by rw [hc]; rfl, hkept⟩
      · rintro ⟨c, hc, hkept⟩
        obtain ⟨h, hh⟩ := Option.isSome_iff_exists.1 hc
        exact ⟨h, c, hh, hkept⟩
    · intro freed stale
      simp only [heatFreed_goneStale]
      simp only [handsetEntry, hbind, hhandsets, hnow]
      rfl
    · rw [hframe]
  refine ⟨fun bits phase s f hf hlive => ?_, fun s r hreleased hdue hlive => ?_, fun s r hreleased hdue hlive hoff => ?_,
    fun s hreleased => ?_, fun s hoff => ?_⟩
  · refine ⟨applyHeat (heardOnly s f), ?_, happlied s _ rfl rfl rfl rfl, ?_, ?_, ?_⟩
    · show Host.Outcome.next (receiveFrame .heat takeHeat bits phase s) = _
      rw [receiveFrame_heardOnly hf (by decide) (watching_of_live hlive)]
      have hlive' : (heardOnly s f).node.live = true := hlive
      exact congrArg _ (if_pos hlive')
    · rw [applyHeat_eq]
      rfl
    · rw [applyHeat_eq]
    · rw [applyHeat_eq]
  · have hoff : s.node ≠ .off := by
      intro e
      rw [e] at hlive
      cases hlive
    have hsetup : s.node ≠ .setup := by
      intro e
      rw [e] at hlive
      cases hlive
    obtain ⟨u, hu⟩ : ∃ u : State, u = { s with sup := { s.sup with heatReleased := none } } := ⟨_, rfl⟩
    refine ⟨applyHeat (queueHeat u), ?_, ?_, ?_, ?_, ?_, ?_⟩
    · rw [exec_heatPress_due hreleased hdue hoff, ← hu]
      exact congrArg _ (if_pos (by rw [hu]; exact hlive))
    · rw [hu]
      exact happlied s _ rfl rfl rfl rfl
    · rw [applyHeat_eq, hu]
      rfl
    · rw [applyHeat_eq, hu]
      rfl
    · have hqueued := queueAfter_queuedIn s.node s.now (newFrame u 1 .heat (Time.plus s.now 7813) .supervisor) s.line.queue
        (acceptsFrame_of_live hlive _) (arrived_plus s.now 7813 (by decide) (by decide))
      have hframe : newFrame u 1 .heat (Time.plus s.now 7813) .supervisor =
          { id := s.line.nextId, level := 1, originator := s.working.address, body := .heat, deadline := Time.plus s.now 7813,
            queued := s.now, owner := .supervisor } := by
        rw [hu]
        simp only [newFrame, if_neg hsetup]
      rw [← hframe, applyHeat_eq, hu]
      rw [hu] at hqueued
      exact hqueued
    · rw [applyHeat_eq, hu]
      rfl
  · rw [exec_heatPress_due hreleased hdue hoff]
    refine congrArg _ (if_neg ?_)
    show ¬s.node.live = true
    rw [hlive]
    nofun
  · show Host.Outcome.next (heatPress s) = _
    simp [heatPress, hreleased]
  · show Host.Outcome.next (heatInputReleased s) = _
    simp [heatInputReleased, hoff]

end Sys2Proof.Machine
end


/-! # Timers of claims, holds and blades; LOAD, power and hold-up (sections 06, 08, 09, 11) -/

section
namespace Sys2Proof.Machine

open Sys2Proof.Safety

/-! ## Claims, holds and silence -/

/-- Settles O37: each expiry reads what it is about. -/
theorem claimsHoldsAndSilence : Obligations.ClaimsHoldsAndSilence := by
  refine ⟨fun i s c hget => ?_, fun l s t hget => ?_, fun side s => ⟨rfl, isBlind_iff s⟩, fun i s e hget hstop => ?_,
    fun i s r hget hdue => ?_, fun a s e r hentry hrequest hdue => ?_⟩
  · show Host.Outcome.next (claimExpiry i s) = _
    simp only [claimExpiry, hget]
    rfl
  · show Host.Outcome.next (laneHoldEnd l s) = _
    simp only [laneHoldEnd, hget]
    rfl
  · have hahead : endArrived s.now e.stop = false := by
      rcases hstop with h | ⟨t, h, ht⟩
      · rw [h]; rfl
      · rw [h]; exact ht
    rw [exec_occupancyExpiry, occupancyExpiry_of_getElem?_some hget, hahead]
    rfl
  · rw [exec_approachExpiry, approachExpiry_of_getElem?_some hget, hdue]
    rfl
  · have hread := (latchedRequest_of_handsetEntry hentry).trans hrequest
    rw [exec_requestExpiry, requestExpiry_of_latchedRequest_some hread]
    refine congrArg _ (if_neg ?_)
    show ¬arrived s.now (Time.plus r.latched (s.working.requestHold * 3906)) = true
    rw [hdue]
    nofun

/-! ## Blades -/

/-- R120: a slot that is freed drops the link of its entry. -/
theorem freeSlot_eq (s : State) (l : Lane) : freeSlot s l = { s with
    occ := { s.occ with list := s.occ.list.map (fun e => if e.link = some l then { e with link := none } else e) }
    grants := { s.grants with slots := s.grants.slots.set l none } } := by
  simp [freeSlot, dropLink, linkedTo, State.setOccupancy, State.setSlot]

/-- Settles O43: the branches of the commands of a blade. -/
theorem bladeThrowsReleasesAndCools : Obligations.BladeThrowsReleasesAndCools := by
  unfold Obligations.BladeThrowsReleasesAndCools
  intro freed
  refine ⟨fun l s t hstate hthrow hdue hrun => ?_, fun l s t hstate hrelease hdue => ?_, fun l s t hstate hcool hdue => ?_,
    fun l s t hstate hdriven hdue => ?_, fun l s t a b hstate hdriven hnot => ?_⟩
  · show Host.Outcome.next (bladeThrow l s) = _
    have hdue' : hasArrived s.now (s.blades.get l).throwAt = true := by rw [hthrow]; exact hdue
    exact congrArg _ (if_pos ⟨hstate, hdue', hrun⟩)
  · show Host.Outcome.next (bladeRelease l s) = _
    simp only [bladeRelease, hrelease]
    refine congrArg _ ((if_pos ⟨hstate, hdue⟩).trans ?_)
    rw [freeSlot_eq]
    rfl
  · show Host.Outcome.next (coolingEnd l s) = _
    have hdue' : hasArrived s.now (s.blades.get l).coolingEnd = true := by rw [hcool]; exact hdue
    exact congrArg _ (if_pos ⟨hstate, hdue'⟩)
  · show Host.Outcome.next (openCoil l false false s) = _
    have hjudged : readingsJudged s.now (s.blades.get l) = true := by simp only [readingsJudged, hdriven]; exact hdue
    simp only [openCoil, hstate, hjudged, Bool.not_false, Bool.and_self, if_true, freeSlot_eq]
    rfl
  · show Host.Outcome.next (openCoil l a b s) = _
    have hkept : (readingsJudged s.now (s.blades.get l) && !a && !b) = false := by
      have hjudged : readingsJudged s.now (s.blades.get l) = arrived s.now (Time.plus t 5) := by
        simp only [readingsJudged, hdriven]
        rfl
      rw [hjudged]
      rcases hnot with h | h | h <;> simp [h]
    simp only [openCoil, hstate, hkept, if_true]
    rfl

/-! ## Entries to SYNC, SETUP, LOAD, OFF and HOLDUP -/

/-- The frame that a JOIN is handed in as. -/
def joinFrame (s : State) : TxFrame :=
  { id := s.line.nextId, level := 2, originator := s.working.address, body := .join, deadline := Time.plus s.now 7813,
    queued := s.now, owner := .supervisor }

/-- R48, R92, R158, R167: the entry to SYNC. -/
theorem enterSync_eq (s : State) : enterSync s = { s with
    node := .sync
    sup := { s.sup with cameOn := some s.now, debounce := none, load := .idle }
    gates := PerLane.const Gate.off
    handsets := (s.handsets.filter (fun e => isBound s e.address || !isStale s.now e)).map (fun e => { e with resync := true })
    occ := occupancySync s.occ s.now
    line := { LineController.silent s.line.nextId with
      queue := [joinFrame s], beacon := some s.now, nextId := s.line.nextId + 1 } } := by
  have hqueue : queueAfter .sync s.now (joinFrame s) [] = [joinFrame s] := by
    have hahead : arrived s.now (joinFrame s).deadline = false := arrived_plus s.now 7813 (by decide) (by decide)
    simp [queueAfter, acceptsFrame, hahead, makeRoom, Config.queueCap, enterFrame, enterInOrder]
  show { portOn (syncEntered s) with line := { (portOn (syncEntered s)).line with
    queue := queueAfter .sync s.now (joinFrame s) [], nextId := s.line.nextId + 1 } } = _
  rw [hqueue]
  rfl

theorem leaveLoad_setup {s : State} {strap valid : Bool} (h : (strap || !valid) = true) : leaveLoad s strap valid = { s with
    node := .setup
    pins := { s.pins with strapHeld := strap }
    sup := { s.sup with load := .idle }
    occ := { s.occ with up := { s.occ.up with address := s.working.upstream },
                        down := { s.occ.down with address := s.working.downstream } }
    line := LineController.silent s.line.nextId } := if_pos h

theorem leaveLoad_sync (s : State) : leaveLoad s false true = enterSync { s with
    pins := { s.pins with strapHeld := false }
    occ := { s.occ with up := { s.occ.up with address := s.working.upstream },
                        down := { s.occ.down with address := s.working.downstream } } } := rfl

/-- Settles O44: a pulse begins, and ends with the next one's rest or with the exit from LOAD. -/
theorem coilPulsesSetTheBlades : Obligations.CoilPulsesSetTheBlades := by
  have hends : ∀ {l : Lane} {s : State} {t : Time} (present strap : Bool), s.sup.load = .pulse l t → s.node = .load →
      arrived s.now (Time.plus t 8) = true → exec (.coilPulseEnd present strap) s = .next (finishPulse l present strap s) := by
    intro l s t present strap hload hnode hdue
    show Host.Outcome.next (coilPulseEnd present strap s) = _
    simp only [coilPulseEnd, hload]
    exact congrArg _ (if_pos ⟨hnode, hdue⟩)
  refine ⟨fun l s t hload hnode hdue => ?_, fun l m s t present strap hload hnode hdue hnext => ?_,
    fun l s t present strap hload hnode hdue hnext => ?_⟩
  · show Host.Outcome.next (coilPulseStart s) = _
    simp only [coilPulseStart, hload]
    exact congrArg _ (if_pos ⟨hnode, hdue⟩)
  · rw [hends present strap hload hnode hdue]
    simp only [finishPulse, hnext]
    rfl
  · rw [hends present strap hload hnode hdue]
    simp only [finishPulse, hnext]
    cases strap with
    | true =>
      rw [leaveLoad_setup rfl]
      exact ⟨_, rfl, rfl, rfl, rfl, rfl, rfl, rfl, rfl, rfl, rfl, fun _ => rfl, nofun⟩
    | false =>
      rw [leaveLoad_sync, enterSync_eq]
      exact ⟨_, rfl, rfl, rfl, rfl, rfl, rfl, rfl, rfl, rfl, rfl, nofun, fun _ => ⟨rfl, _, rfl, rfl, rfl, rfl, rfl⟩⟩

/-- R66, R67, R166: what is cut: a write in flight leaves its block open, a save its records, and both marks stand. -/
theorem cut_eq (s : State) : ∃ (b : Block) (r : CodeTable (BitVec 40)) (d : Nat), cutSave (cutWrite s) = { s with
      nv := { s.nv with block := b, records := r }, sup := { s.sup with save := none, write := none }, draws := d } ∧
    (s.sup.write = none → b = s.nv.block) ∧ (s.sup.save = none → r = s.nv.records) := by
  have hwrite : ∃ (b : Block) (d : Nat), cutWrite s = { s with nv := { s.nv with block := b }, sup := { s.sup with write := none }, draws := d } ∧
      (s.sup.write = none → b = s.nv.block) := by
    cases hw : s.sup.write with
    | none =>
      have hsup : { s.sup with write := none } = s.sup := by rw [← hw]
      exact ⟨s.nv.block, s.draws, by rw [cutWrite_of_none hw, hsup], fun _ => rfl⟩
    | some w =>
      exact ⟨{ fields := Config.cutFields s.draws, check := Config.cutCheck s.draws }, s.draws + 1,
        by simp only [cutWrite, hw], nofun⟩
  obtain ⟨b, d, hcut, hblock⟩ := hwrite
  cases hsave : s.sup.save with
  | none =>
    have hnone : (cutWrite s).sup.save = none := by rw [hcut]; exact hsave
    have hsup : { s.sup with save := none, write := none } = { s.sup with write := none } := by rw [← hsave]
    exact ⟨b, s.nv.records, d, by rw [cutSave_of_none hnone, hcut, hsup], hblock, fun _ => rfl⟩
  | some t =>
    refine ⟨b, CodeTable.ofFn (Config.cutRecord d), d + 1, ?_, hblock, nofun⟩
    simp only [hcut, cutSave, hsave]

/-- Settles O57: the entry to LOAD, with the read or the wait for the release. -/
theorem powerOnAndResetEnterLoad : Obligations.PowerOnAndResetEnterLoad := by
  unfold Obligations.PowerOnAndResetEnterLoad
  intro started
  have hstarted : ∀ s u : State, u.sup.mirror = s.sup.mirror → ∀ held, u.pins.resetHeld = held → started s (loadEntered u) held := by
    rintro s u hmirror held rfl
    refine ⟨rfl, rfl, rfl, rfl, hmirror, rfl, rfl, rfl, rfl, rfl, rfl, rfl, fun l => ?_, rfl, rfl, rfl, rfl⟩
    cases l <;> exact ⟨rfl, rfl, rfl⟩
  refine ⟨?_, fun s held hoff hsave hwrite => ?_, fun s hon hpower => ?_, fun s hnode hload => ?_⟩
  · show Host.Outcome.next (powerOn false State.delivered) = _
    refine congrArg _ ((if_pos rfl).trans ?_)
    rw [enterLoad_uncut rfl rfl rfl]
    rfl
  · obtain ⟨u, hu⟩ : ∃ u : State, u = { s with pins := { s.pins with trackPower := true, resetHeld := held } } := ⟨_, rfl⟩
    have hexec : exec (.powerOn held) s = .next (loadEntered u) := by
      show Host.Outcome.next (powerOn held s) = _
      refine congrArg _ ((if_pos hoff).trans ?_)
      rw [← hu, enterLoad_uncut (by rw [hu]) (by rw [hu]; exact hsave) (by rw [hu]; exact hwrite)]
    refine ⟨_, hexec, hstarted s u (by rw [hu]) held (by rw [hu]), ?_, ?_⟩
    · rw [hu]
      rfl
    · rw [hu]
      rfl
  · obtain ⟨u, hu⟩ : ∃ u : State, u = { s with pins := { s.pins with resetHeld := true } } := ⟨_, rfl⟩
    obtain ⟨b, r, d, hcut, hblock, hrecords⟩ := cut_eq u
    have hexec : exec .resetAssert s = .next (loadEntered (cutSave (cutWrite u))) := by
      show Host.Outcome.next (resetAssert s) = _
      refine congrArg _ ((if_neg hon).trans ?_)
      rw [← hu, enterLoad_of_power (by rw [hu]; exact hpower)]
    rw [hcut] at hexec
    refine ⟨_, hexec, hstarted s _ (by rw [hu]) true (by rw [hu]), ?_, ?_, fun hsave hwrite => ?_⟩
    · rw [hu]
      rfl
    · rw [hu]
      rfl
    · show { u.nv with block := b, records := r } = _
      rw [hblock (by rw [hu]; exact hwrite), hrecords (by rw [hu]; exact hsave), hu]
  · show Host.Outcome.next (resetRelease s) = _
    exact congrArg _ (if_pos ⟨hnode, hload⟩)

/-! ## Hold-up and the warm restart (R168, R169) -/

/-- R141: an ARMED or THROWN blade is forced down, and any other stands. -/
theorem Blade.forcedDown_eq (b : Blade) (now : Time) : b.forcedDown now =
    if b.state = .armed ∨ b.state = .thrown then
      { state := .cooling, throwAt := none, releaseAt := none, coolingEnd := some (Time.plus now 625), coil := false,
        drivenSince := none }
    else b := by
  unfold Blade.forcedDown
  cases hs : b.state <;> simp [Blade.standDown, Config.coolingTicks]

theorem isBound_eq_decide (s : State) (h : HandsetAddr) : isBound s h = decide (∃ c, (s.bind.entries.get c).handset = some h) := by
  rw [Bool.eq_iff_iff, decide_eq_true_eq, ← Bool.not_eq_false, isBound_eq_false]
  push Not
  rfl

/-- R168: HOLDUP is entered while retention reads high. -/
theorem exec_trackPowerAbsent_live {s : State} (h : s.node = .sync ∨ s.node = .run) (high : Bool) :
    exec (.trackPowerAbsent high) s = .next (retentionChecked (enterHoldup
      { s with pins := { s.pins with trackPower := false, retentionHigh := high } })) := by
  show Host.Outcome.next (trackPowerAbsent high s) = _
  rcases h with h | h <;> simp only [trackPowerAbsent, h]

theorem enterHoldup_unsaved {s : State} (h : s.bind.unsaved = true) : enterHoldup s = { holdupEntered s with
    nv := { s.nv with saveMark := 0 }
    sup := { (holdupEntered s).sup with nvBusy := true, save := some s.now } } := if_pos h

theorem enterHoldup_saved {s : State} (h : s.bind.unsaved = false) : enterHoldup s = holdupEntered s :=
  if_neg (by show ¬s.bind.unsaved = true; rw [h]; nofun)

theorem retentionChecked_high {s : State} (h : s.pins.retentionHigh = true) : retentionChecked s = s := if_pos h

theorem retentionChecked_low {s : State} (h : s.pins.retentionHigh = false) : retentionChecked s = goOff s := if_neg (by rw [h]; nofun)

theorem startSave_pins (s : State) : (startSave s).pins = s.pins := by
  unfold startSave
  split <;> rfl

/-- Settles O59: the entry to HOLDUP, the debounce, and the entry to SYNC. -/
theorem holdupAndWarmRestart : Obligations.HoldupAndWarmRestart := by
  refine ⟨fun s hlive => ?_, fun s hnode hdebounce => ?_, fun s hnode => ?_, fun s b hnode hdebounce hdue => ?_,
    fun s t hnode hcame hdue => ?_⟩
  · obtain ⟨u, hu⟩ : ∃ u : State, u = { s with pins := { s.pins with trackPower := false, retentionHigh := true } } := ⟨_, rfl⟩
    have hexec : exec (.trackPowerAbsent true) s = .next (enterHoldup u) := by
      rw [exec_trackPowerAbsent_live hlive, ← hu, retentionChecked_high]
      rw [enterHoldup, startSave_pins, hu]
      rfl
    obtain ⟨nv, sup, hentered⟩ : ∃ nv sup, enterHoldup u = { holdupEntered u with nv := nv, sup := sup } := by
      cases hunsaved : u.bind.unsaved with
      | true => exact ⟨_, _, enterHoldup_unsaved hunsaved⟩
      | false => exact ⟨_, _, enterHoldup_saved hunsaved⟩
    have hunsaved : s.bind.unsaved = true → (enterHoldup u).sup.save = some s.now ∧ (enterHoldup u).sup.nvBusy = true ∧
        (enterHoldup u).nv = { s.nv with saveMark := 0 } := by
      intro h
      rw [enterHoldup_unsaved (by rw [hu]; exact h), hu]
      exact ⟨rfl, rfl, rfl⟩
    have hsaved : s.bind.unsaved = false → (enterHoldup u).nv = s.nv ∧ (enterHoldup u).sup.save = s.sup.save := by
      intro h
      rw [enterHoldup_saved (by rw [hu]; exact h), hu]
      exact ⟨rfl, rfl⟩
    rw [hentered, hu] at hunsaved hsaved
    rw [hentered, hu] at hexec
    refine ⟨_, hexec, rfl, rfl, rfl, rfl, rfl, rfl, rfl, rfl, fun l => ?_, rfl, rfl, rfl, fun c => CodeTable.get_map _ _ c, rfl,
      fun l => ?_, hunsaved, hsaved⟩
    · cases l <;> exact ⟨rfl, rfl, rfl, rfl⟩
    · exact (PerLane.get_map _ _ l).trans (Blade.forcedDown_eq _ _)
  · show Host.Outcome.next (trackPowerReturn s) = _
    exact congrArg _ (if_pos ⟨hnode, hdebounce⟩)
  · show Host.Outcome.next (trackPowerAbsent true s) = _
    simp only [trackPowerAbsent, hnode]
    exact congrArg _ (retentionChecked_high rfl)
  · have hexec : exec .debounceComplete s = .next (enterSync s) := by
      show Host.Outcome.next (debounceComplete s) = _
      simp only [debounceComplete, hdebounce]
      exact congrArg _ (if_pos ⟨hnode, hdue⟩)
    rw [enterSync_eq] at hexec
    simp only [isBound_eq_decide] at hexec
    exact ⟨_, hexec, rfl, rfl, rfl, ⟨_, rfl, rfl, rfl, rfl⟩, rfl, rfl, rfl, rfl, rfl, rfl, rfl, rfl⟩
  · show Host.Outcome.next (syncEnd s) = _
    simp only [syncEnd, hcame]
    exact congrArg _ (if_pos ⟨hnode, hdue⟩)

/-! ## OFF (R160) -/

/-- Settles O60: OFF keeps the store, but for what is cut. -/
theorem offKeepsOnlyTheStore : Obligations.OffKeepsOnlyTheStore := by
  unfold Obligations.OffKeepsOnlyTheStore
  intro off
  have hempty : ∀ (s : State) (nv : Nv) (d id : Nat) (pending : List Instr), nv.writeMark = s.nv.writeMark →
      nv.saveMark = s.nv.saveMark → (s.sup.save = none → s.sup.write = none → nv = s.nv) →
      off s (State.offWith nv d id pending) := by
    intro s nv d id pending hwriteMark hsaveMark hnv
    refine ⟨rfl, rfl, rfl, rfl, rfl, rfl, rfl, rfl, rfl, rfl, rfl, fun c => CodeTable.get_const _ c, fun l => ?_, rfl, rfl, rfl,
      hwriteMark, hsaveMark, hnv⟩
    cases l <;> exact ⟨rfl, rfl, rfl, rfl, rfl⟩
  have hoff : ∀ s u : State, u.nv = s.nv → u.sup.save = s.sup.save → u.sup.write = s.sup.write → off s (goOff u) := by
    intro s u hnv hsave hwrite
    obtain ⟨b, r, d, hcut, hblock, hrecords⟩ := cut_eq u
    simp only [goOff, hcut]
    refine hempty s _ _ _ _ (by rw [← hnv]) (by rw [← hnv]) fun hs hw => ?_
    rw [hblock (hwrite.trans hw), hrecords (hsave.trans hs), ← hnv]
  refine ⟨fun s hnode => ?_, fun s hnode => ?_, fun s high hnode => ?_, fun s hon hpower => ?_, fun s hnode => ?_, fun s hlive => ?_⟩
  · exact ⟨goOff s, congrArg Host.Outcome.next (if_pos hnode), hoff s s rfl rfl rfl⟩
  · exact ⟨goOff s, congrArg Host.Outcome.next (if_neg hnode), hoff s s rfl rfl rfl⟩
  · refine ⟨_, ?_, hoff s { s with pins := { s.pins with trackPower := false, retentionHigh := high } } rfl rfl rfl⟩
    show Host.Outcome.next (trackPowerAbsent high s) = _
    rcases hnode with h | h | h <;> simp only [trackPowerAbsent, h]
  · obtain ⟨u, hu⟩ : ∃ u : State, u = { s with pins := { s.pins with resetHeld := true } } := ⟨_, rfl⟩
    obtain ⟨b, r, d, hcut, hblock, hrecords⟩ := cut_eq u
    have hexec : exec .resetAssert s = .next (goOff (loadEntered (cutSave (cutWrite u)))) := by
      show Host.Outcome.next (resetAssert s) = _
      refine congrArg _ ((if_neg hon).trans ?_)
      rw [← hu, enterLoad, powerChecked, if_neg]
      show ¬(cutSave (cutWrite u)).pins.trackPower = true
      rw [cutSave_pins, cutWrite_pins, hu, hpower]
      nofun
    refine ⟨_, hexec, ?_⟩
    rw [hcut, goOff, cut_of_none rfl rfl]
    refine hempty s _ _ _ _ (by rw [hu]; rfl) (by rw [hu]; rfl) fun hs hw => ?_
    show { u.nv with block := b, records := r } = s.nv
    rw [hblock (by rw [hu]; exact hw), hrecords (by rw [hu]; exact hs), hu]
  · refine ⟨_, ?_, hoff s { s with
      pins := { s.pins with trackPower := false, retentionHigh := false }, sup := { s.sup with debounce := none } } rfl rfl rfl⟩
    show Host.Outcome.next (trackPowerAbsent false s) = _
    simp only [trackPowerAbsent, hnode]
    exact congrArg _ (retentionChecked_low rfl)
  · obtain ⟨u, hu⟩ : ∃ u : State, u = { s with pins := { s.pins with trackPower := false, retentionHigh := false } } := ⟨_, rfl⟩
    have hexec : exec (.trackPowerAbsent false) s = .next (goOff (enterHoldup u)) := by
      rw [exec_trackPowerAbsent_live hlive, ← hu, retentionChecked_low]
      rw [enterHoldup, startSave_pins, hu]
      rfl
    refine ⟨_, hexec, fun hsaved => ?_, fun hunsaved => ?_⟩
    · rw [enterHoldup_saved (by rw [hu]; exact hsaved), hu]
      exact hoff s _ rfl rfl rfl
    · rw [enterHoldup_unsaved (by rw [hu]; exact hunsaved)]
      refine ⟨hoff _ _ ?_ ?_ ?_, fun hwrite => ?_⟩
      · rw [hu]
      · rw [hu]
      · rw [hu]
        rfl
      · obtain ⟨b, r, d, hcut, hblock, _⟩ := cut_eq { holdupEntered u with
          nv := { u.nv with saveMark := 0 }
          sup := { (holdupEntered u).sup with nvBusy := true, save := some u.now } }
        simp only [goOff, hcut]
        show b = s.nv.block
        rw [hblock (by rw [hu]; exact hwrite), hu]

end Sys2Proof.Machine
end


/-! # Frames of other stations: BEACON, the setup frames and the address clash (R91, R152, R153, R165, R166) -/

section
namespace Sys2Proof.Machine

open Sys2Proof.Safety

/-! ## Step 1 (R91, R153) -/

theorem Geometry.ok_iff (g : Geometry) : g.ok = true ↔
    40 ≤ g.ds ∧ g.ds ≤ 1023 ∧ 40 ≤ g.dm ∧ g.dm ≤ 1023 ∧ 2 ≤ g.lanes ∧ g.lanes ≤ 4 := by
  simp [Geometry.ok, inRange, and_assoc]

theorem NeighbourRecord.hear_beacon {f : GoodFrame} (h : f.kind = .beacon) (r : NeighbourRecord) (now : Time) : r.hear now f =
    if r.address = f.originator ∧ r.address ≠ 0 then
      { r with
        lastHeard := some now
        geometry := if (decodeBeacon (payloadWord 24 f.payload)).ok = true then some (decodeBeacon (payloadWord 24 f.payload))
          else r.geometry }
    else r := by
  simp only [NeighbourRecord.hear, GoodFrame.geometry, if_pos h]

/-- A node that reads a frame is in SETUP or does step 1. -/
theorem watching_of_delivered {s : State} {bits : List Bool} {kind : FrameKind} {f : GoodFrame} (h : delivered s bits kind f)
    (hsetup : s.node ≠ .setup) : s.node.watching = true := by
  obtain ⟨hreads, _⟩ := h
  have hlistens : s.node.listens = true := by
    simp only [readsFrame, Bool.and_eq_true] at hreads
    exact hreads.1
  cases hn : s.node <;> simp_all [NodeState.listens, NodeState.watching]

/-- In SETUP there is no step 1. -/
theorem receiveFrame_setup {s : State} {bits : List Bool} {kind : FrameKind} {f : GoodFrame} (h : delivered s bits kind f)
    (hsetup : s.node = .setup) (take : GoodFrame → Time → State → State) (phase : BitVec 3) :
    receiveFrame kind take bits phase s = take f (stampOf s phase kind) (frameEnded s) := by
  have hwatching : (frameEnded s).node.watching = false := by
    show s.node.watching = false
    rw [hsetup]
    rfl
  rw [receiveFrame_delivered h, heard_other _ _ (.inl hwatching)]

/-! ## Takers that take nothing (R153) -/

theorem takePass_unwatched {s : State} (h : s.node.watching = false) (f : GoodFrame) (t : Time) : takePass f t s = s := by
  have hlive : s.node.live = false := by
    rw [← Bool.not_eq_true]
    intro hl
    rw [watching_of_live hl] at h
    nomatch h
  unfold takePass
  simp only [passToApproach, h, passToClaims, hlive, passToTables, Bool.false_and, Bool.false_eq_true, if_false]
  cases (decodePass (payloadWord 88 f.payload)).outcome <;> rfl

theorem takeBind_not_live {s : State} (h : s.node.live = false) (f : GoodFrame) (t : Time) : takeBind f t s = s := by
  unfold takeBind
  simp only [h, Bool.false_eq_true, if_false]
  cases (decodeBind (payloadWord 48 f.payload)).proposal <;> rfl

theorem takeJoin_not_live {s : State} (h : s.node.live = false) (f : GoodFrame) (t : Time) : takeJoin f t s = s :=
  if_neg (by rw [h]; nofun)

theorem takeHeat_not_live {s : State} (h : s.node.live = false) (f : GoodFrame) (t : Time) : takeHeat f t s = s :=
  if_neg (by rw [h]; nofun)

/-- Settles O54: step 1 and nothing else. -/
theorem beaconAndCfgdRefreshNeighbours : Obligations.BeaconAndCfgdRefreshNeighbours := by
  unfold Obligations.BeaconAndCfgdRefreshNeighbours
  intro refreshed after
  refine ⟨fun bits phase s f hf hwatching => ?_, fun bits phase s f hf hwatching => ?_, fun kind bits phase s f hkind hf hfault => ?_,
    fun kind bits phase s f hr hw hx hf hsetup => ?_⟩
  · have hk : f.kind = .beacon := by
      obtain ⟨_, _, hk, _⟩ := hf
      exact hk
    have hheard : heard (frameEnded s) f = after s f (some (decodeBeacon (payloadWord 24 f.payload))) := by
      refine (if_pos hwatching).trans ?_
      simp only [refreshNeighbours, NeighbourRecord.hear_beacon hk, Geometry.ok_iff]
      rfl
    show Host.Outcome.next (beaconReceived bits phase s) = _
    rw [beaconReceived, receiveFrame_delivered hf, hheard]
    rfl
  · show Host.Outcome.next (cfgdReceived bits phase s) = _
    rw [cfgdReceived, receiveFrame_heardOnly hf nofun hwatching]
    rfl
  · have hlive : (heardOnly s f).node.live = false := by
      show s.node.live = false
      rw [hfault]
      rfl
    have hwatching : s.node.watching = true := by rw [hfault]; rfl
    have htake : taker kind f (stampOf s phase kind) (heardOnly s f) = heardOnly s f := by
      rcases hkind with rfl | rfl | rfl
      · exact takeBind_not_live hlive f (stampOf s phase .bind)
      · exact takeJoin_not_live hlive f (stampOf s phase .join)
      · exact takeHeat_not_live hlive f (stampOf s phase .heat)
    rw [exec_received, receiveFrame_heardOnly hf (by rcases hkind with rfl | rfl | rfl <;> nofun) hwatching, htake]
    rfl
  · have hlive : (frameEnded s).node.live = false := by
      show s.node.live = false
      rw [hsetup]
      rfl
    have hwatching : (frameEnded s).node.watching = false := by
      show s.node.watching = false
      rw [hsetup]
      rfl
    have htake : taker kind f (stampOf s phase kind) (frameEnded s) = frameEnded s := by
      cases kind with
      | pass => exact takePass_unwatched hwatching f (stampOf s phase .pass)
      | bind => exact takeBind_not_live hlive f (stampOf s phase .bind)
      | heat => exact takeHeat_not_live hlive f (stampOf s phase .heat)
      | join => exact takeJoin_not_live hlive f (stampOf s phase .join)
      | beacon | cfgd => rfl
      | cfgr => exact absurd rfl hr
      | cfgw => exact absurd rfl hw
      | cfgx => exact absurd rfl hx
    rw [exec_received, receiveFrame_setup hf hsetup, htake]
    rfl

/-! ## Setup frames (R165, R166) -/

/-- R165: a setup frame is for the node. -/
theorem addressed_iff (s : State) (f : GoodFrame) : addressed s f = true ↔ s.node = .setup ∧ f.originator = 63 ∧
    (payloadWord 8 (f.payload.take 8)).toNat = s.sup.setupAddress.toNat := by
  have htarget : targetByte f.payload = s.sup.setupAddress.setWidth 8 ↔
      (payloadWord 8 (f.payload.take 8)).toNat = s.sup.setupAddress.toNat := by
    have := s.sup.setupAddress.isLt
    rw [← BitVec.toNat_inj, BitVec.toNat_setWidth, Nat.mod_eq_of_lt (by omega)]
    rfl
  simp only [addressed, Bool.and_eq_true, decide_eq_true_eq, htarget, and_assoc]
  rfl

theorem taker_unaddressed {kind : FrameKind} (hkind : kind = .cfgr ∨ kind = .cfgw ∨ kind = .cfgx) {s : State} {f : GoodFrame}
    (h : addressed s f = false) (t : Time) : taker kind f t s = s := by
  rcases hkind with rfl | rfl | rfl
  · exact if_neg (by rw [h]; nofun)
  · exact if_neg (by rw [h]; nofun)
  · exact if_neg (by rw [h]; nofun)

/-- Settles O55: the tool's frames, and those that are not for the node. -/
theorem setupFramesOfTheTool : Obligations.SetupFramesOfTheTool := by
  unfold Obligations.SetupFramesOfTheTool
  intro forNode ended
  have haddressed : ∀ s f, forNode s f → addressed (frameEnded s) f = true := fun s f h => (addressed_iff _ _).2 h
  refine ⟨fun bits phase s f hf hnode => ?_, fun bits phase s f hf hnode => ?_, fun bits phase s f hf hnode hbusy => ?_,
    fun bits phase s f hf hnode hfree hpower hheld hsave hwrite => ?_, fun kind bits phase s f hkind hf hnode => ?_⟩
  · have hsetup : s.node = .setup := hnode.1
    refine ⟨(queueCfgd (frameEnded s)).line.queue, ?_, ?_⟩
    · have hqueued := queueAfter_queuedIn .setup s.now (newFrame (frameEnded s) 3 (.cfgd s.sup.mirror.image)
        (Time.plus s.now Config.beaconTicks) .supervisor) s.line.queue rfl (arrived_plus s.now _ (by decide) (by decide))
      have hframe : newFrame (frameEnded s) 3 (.cfgd s.sup.mirror.image) (Time.plus s.now Config.beaconTicks) .supervisor =
          { id := s.line.nextId, level := 3, originator := s.sup.setupAddress, body := .cfgd s.sup.mirror.image,
            deadline := Time.plus s.now 3906, queued := s.now, owner := .supervisor } := by
        have horiginator : (if s.node = .setup then s.sup.setupAddress else s.working.address) = s.sup.setupAddress := if_pos hsetup
        rw [← horiginator]
        rfl
      rw [← hframe]
      show queuedIn _ _ (queueAfter s.node s.now _ _)
      rw [hsetup]
      exact hqueued
    · show Host.Outcome.next (cfgrReceived bits phase s) = _
      rw [cfgrReceived, receiveFrame_setup hf hsetup, takeCfgr, if_pos (haddressed s f hnode)]
      rfl
  · show Host.Outcome.next (cfgwReceived bits phase s) = _
    rw [cfgwReceived, receiveFrame_setup hf hnode.1]
    have htake : (addressed (frameEnded s) f && !s.sup.nvBusy && (carriedBlock f.payload).checkOk) = true ↔
        s.sup.nvBusy = false ∧ (carriedBlock f.payload).check = checkByte (carriedBlock f.payload).fields := by
      rw [haddressed s f hnode]
      simp [Block.checkOk]
    exact congrArg _ (if_congr htake rfl rfl)
  · show Host.Outcome.next (cfgxReceived bits phase s) = _
    rw [cfgxReceived, receiveFrame_setup hf hnode.1, takeCfgx, if_neg]
    · rfl
    · show ¬(addressed (frameEnded s) f && !s.sup.nvBusy) = true
      rw [hbusy, Bool.and_comm]
      nofun
  · have htake : (addressed (frameEnded s) f && !s.sup.nvBusy) = true := by rw [haddressed s f hnode, hfree]; rfl
    have hexec : exec (.cfgxReceived bits phase) s = .next (loadEntered (frameEnded s)) := by
      show Host.Outcome.next (cfgxReceived bits phase s) = _
      rw [cfgxReceived, receiveFrame_setup hf hnode.1, ← enterLoad_uncut (s := frameEnded s) hpower hsave hwrite]
      exact congrArg _ (if_pos htake)
    refine ⟨_, hexec, rfl, rfl, ?_, ?_, rfl, rfl, rfl⟩
    · show (if s.pins.resetHeld then LoadWork.heldInReset else .reading 0) = _
      rw [hheld]
      rfl
    · show (!s.pins.resetHeld) = true
      rw [hheld]
      rfl
  · intro hear
    by_cases hsetup : s.node = .setup
    · have hun : addressed (frameEnded s) f = false := by
        rw [← Bool.not_eq_true]
        exact fun h => hnode ((addressed_iff _ _).1 h)
      have hquiet : ∀ r, hear r = r := fun r => if_neg (fun h => h.1 hsetup)
      rw [exec_received, receiveFrame_setup hf hsetup, taker_unaddressed hkind hun, hquiet, hquiet]
      rfl
    · have hun : addressed (heardOnly s f) f = false := by
        rw [← Bool.not_eq_true]
        exact fun h => hsetup ((addressed_iff _ _).1 h).1
      have hhear : ∀ r, hear r = heardFrom s f r := fun r => by simp only [hear, hsetup, heardFrom, ne_eq, not_false_iff, true_and]
      rw [exec_received, receiveFrame_heardOnly hf (by rcases hkind with rfl | rfl | rfl <;> nofun) (watching_of_delivered hf hsetup),
        taker_unaddressed hkind hun, hhear, hhear]
      rfl

/-! ## The address clash (R152, R170) -/

/-- Settles O56: the entry to FAULT at the end of the frame. -/
theorem addressClashEntersFault : Obligations.AddressClashEntersFault := by
  intro kind bits phase s f hreads hgood hkind hnode hown
  have hclash : isClash s f = true := by
    rcases hnode with h | h <;> simp [isClash, h, NodeState.live, hown]
  have hexec : exec (received kind bits phase) s = .next (enterFault (frameEnded s)) := by
    rw [exec_received, receiveFrame, hgood]
    simp only [hreads, hkind, hclash, decide_true, Bool.and_self, if_true]
  have hblades : ∀ l, (enterFault (frameEnded s)).blades.get l = (s.blades.get l).forcedDown s.now := fun l => PerLane.get_map _ _ l
  refine ⟨_, hexec, rfl, rfl, rfl, rfl, rfl, fun l => ?_, fun l hl => ?_, fun l => PerLane.get_map _ _ l, rfl, rfl, rfl, rfl, rfl, rfl,
    rfl, rfl⟩
  · rw [hblades, Blade.forcedDown_eq]
    cases hstate : (s.blades.get l).state <;> simp [hstate]
  · rw [hblades, Blade.forcedDown_eq, if_pos hl]
    exact ⟨rfl, rfl⟩

end Sys2Proof.Machine
end


/-! # A received PASS (R44, R75, R86, R121, R129, R130, R153) -/

section
namespace Sys2Proof.Machine

open Sys2Proof.Safety

/-! ## The notice at the two lists -/

theorem approachLane_eq (p : PassNotice) (o : Outcome) :
    approachLane p o = if o = .yielded ∨ o = .late ∨ o = .aborted then p.laneIn else p.laneOut := by
  cases o <;> rfl

theorem claimsWithout_eq (code : CarCode) (cs : List Claim) :
    claimsWithout code cs = cs.filter (fun c => decide (code = 0 ∨ c.code ≠ code)) := by
  refine List.filter_congr fun c _ => ?_
  by_cases h : code = 0 <;> simp [h]

/-- R86, R121: what a PASS of the upstream neighbour does. -/
theorem passToApproach_eq {s : State} (h : s.node.watching = true) (f : GoodFrame) (p : PassNotice) (o : Outcome) (t : Time) :
    passToApproach f p o t s =
      if f.originator = s.working.upstream ∧ f.originator ≠ 0 ∧ s.working.gu ≠ 0 ∧ (approachLane p o).num ≤ s.working.lanes then
        recheck (enterApproach s (approachRecord s.working p o t)) (some (approachRecord s.working p o t))
      else s := by
  unfold passToApproach approachNotice fromNeighbour
  by_cases hup : f.originator = s.working.upstream
  · by_cases hzero : f.originator = 0
    · simp [← hup, hzero]
    · by_cases hgu : s.working.gu = 0
      · simp [hgu]
      · simp only [h, ← hup, hzero, hgu, ne_eq, not_false_iff, decide_true, Bool.and_self, if_true, true_and]
        rfl
  · simp [hup]

/-- R121, R129, R130: what a PASS of the downstream neighbour does. -/
theorem passToClaims_eq {s : State} (h : s.node.watching = true) (f : GoodFrame) (p : PassNotice) (o : Outcome) (t : Time) :
    passToClaims f p o t s =
      if s.node ≠ .fault ∧ f.originator = s.working.downstream ∧ f.originator ≠ 0 ∧ s.working.gd ≠ 0 then
        if (o = .taken ∨ o = .shared ∨ o = .swept) ∧ p.laneOut.num ≤ s.working.lanes then
          recheck (enterClaim s (claimOf f.originator p t)) none
        else if o = .yielded ∨ o = .late ∨ o = .aborted then
          s.setClaims (s.grants.claims.filter (fun x => decide (p.code = 0 ∨ x.code ≠ p.code)))
        else s
      else s := by
  have hlive : s.node.live = decide (s.node ≠ .fault) := by
    cases hn : s.node <;> simp_all [NodeState.live, NodeState.watching]
  have hnotice : claimNotice s f.originator p o t =
      if (o = .taken ∨ o = .shared ∨ o = .swept) ∧ p.laneOut.num ≤ s.working.lanes then
        recheck (enterClaim s (claimOf f.originator p t)) none
      else if o = .yielded ∨ o = .late ∨ o = .aborted then
        s.setClaims (s.grants.claims.filter (fun x => decide (p.code = 0 ∨ x.code ≠ p.code)))
      else s := by
    unfold claimNotice
    cases o <;> simp [claimsWithout_eq]
  unfold passToClaims
  rw [hnotice]
  refine if_congr ?_ rfl rfl
  simp only [hlive, fromNeighbour, Bool.and_eq_true, decide_eq_true_eq, and_assoc, ne_eq]
  constructor
  · rintro ⟨hfault, hzero, hdown, hgd⟩
    exact ⟨hfault, hdown, by rw [hdown]; exact hzero, hgd⟩
  · rintro ⟨hfault, hdown, hzero, hgd⟩
    exact ⟨hfault, by rw [← hdown]; exact hzero, hdown, hgd⟩

theorem takePass_of_outcome {f : GoodFrame} {p : PassNotice} {o : Outcome} (hp : p = decodePass (payloadWord 88 f.payload))
    (ho : p.outcome = some o) (t : Time) (s : State) :
    takePass f t s = passToTables p o (passToClaims f p o t (passToApproach f p o t s)) := by
  subst hp
  simp only [takePass, ho]

theorem takePass_of_no_outcome {f : GoodFrame} (ho : (decodePass (payloadWord 88 f.payload)).outcome = none) (t : Time) (s : State) :
    takePass f t s = s := by
  simp only [takePass, ho]

/-! ## What the notice keeps -/

theorem passToApproach_frame (f : GoodFrame) (p : PassNotice) (o : Outcome) (t : Time) (s : State) : ∃ bs es rs h sl e c q n,
    passToApproach f p o t s = { s with
      blades := bs
      occ := { s.occ with list := es, approach := rs, holds := h }
      grants := { s.grants with slots := sl }
      bind := { s.bind with entries := e, cursor := c }
      line := { s.line with queue := q, nextId := n } } := by
  unfold passToApproach
  split
  · exact approachNotice_frame s p o t
  · exact ⟨_, _, _, _, _, _, _, _, _, rfl⟩

theorem passToClaims_frame (f : GoodFrame) (p : PassNotice) (o : Outcome) (t : Time) (s : State) : ∃ bs es h g e c q n,
    passToClaims f p o t s = { s with
      blades := bs
      occ := { s.occ with list := es, holds := h }
      grants := g
      bind := { s.bind with entries := e, cursor := c }
      line := { s.line with queue := q, nextId := n } } := by
  unfold passToClaims
  split
  · exact claimNotice_frame s f.originator p o t
  · exact ⟨_, _, _, _, _, _, _, _, rfl⟩

theorem passToTables_frame (p : PassNotice) (o : Outcome) (s : State) : ∃ hs e, passToTables p o s = { s with
    handsets := hs
    bind := { s.bind with entries := e } } := by
  unfold passToTables
  split
  · rw [passConsumes_eq]
    obtain ⟨e, he⟩ := orderReceived_frame s p o
    rw [he]
    exact ⟨_, _, rfl⟩
  · exact ⟨_, _, rfl⟩

/-- R153: all that a PASS can write, beside the end of its frame on the line. -/
theorem takePass_writes (s : State) (f : GoodFrame) (t : Time) : takePass f t (heardOnly s f) = { s with
    handsets := (takePass f t (heardOnly s f)).handsets
    bind := { s.bind with
      entries := (takePass f t (heardOnly s f)).bind.entries
      cursor := (takePass f t (heardOnly s f)).bind.cursor }
    occ := { s.occ with
      list := (takePass f t (heardOnly s f)).occ.list
      holds := (takePass f t (heardOnly s f)).occ.holds
      approach := (takePass f t (heardOnly s f)).occ.approach
      up := (takePass f t (heardOnly s f)).occ.up
      down := (takePass f t (heardOnly s f)).occ.down }
    grants := (takePass f t (heardOnly s f)).grants
    blades := (takePass f t (heardOnly s f)).blades
    line := { s.line with
      state := .waitIdle 0
      send := .idle
      queue := (takePass f t (heardOnly s f)).line.queue
      nextId := (takePass f t (heardOnly s f)).line.nextId } } := by
  obtain ⟨_, _, _, _, _, _, _, _, _, _, h⟩ := takePass_frame f t (heardOnly s f)
  rw [h]
  rfl

/-- R86: a record entered stands in the list, alone for an identified car. -/
theorem enterApproach_entered (s : State) (r : ApproachRecord) : r ∈ (enterApproach s r).occ.approach ∧
    (r.code ≠ 0 → ∀ x ∈ (enterApproach s r).occ.approach, x.code = r.code → x = r) := by
  obtain ⟨rs, he, hsub, _⟩ := enterApproach_spec s r
  rw [he]
  refine ⟨(mem_enterInOrder _ _ _ _).2 (.inl rfl), fun hcode x hx hsame => ?_⟩
  rcases (mem_enterInOrder _ _ _ _).1 hx with rfl | hrest
  · rfl
  · have hkept := (List.mem_filter.1 (hsub.subset hrest)).2
    exact absurd (by simpa [hsame] using hkept) hcode

/-- R129: a claim entered stands in the table, alone for an identified car. -/
theorem enterClaim_entered (s : State) (c : Claim) : c ∈ (enterClaim s c).grants.claims ∧
    (c.code ≠ 0 → ∀ x ∈ (enterClaim s c).grants.claims, x.code = c.code → x = c) := by
  obtain ⟨cs, he, hsub, _⟩ := enterClaim_spec s c
  rw [he]
  refine ⟨(mem_enterInOrder _ _ _ _).2 (.inl rfl), fun hcode x hx hsame => ?_⟩
  rcases (mem_enterInOrder _ _ _ _).1 hx with rfl | hrest
  · rfl
  · have hkept := (List.mem_filter.1 (hsub.subset hrest)).2
    exact absurd (by simpa [hsame] using hkept) hcode

theorem recheck_lists (s : State) (r : Option ApproachRecord) :
    (recheck s r).occ.approach = s.occ.approach ∧ (recheck s r).grants.claims = s.grants.claims := by
  obtain ⟨_, _, _, _, _, _, _, h⟩ := recheck_frame s r
  rw [h]
  exact ⟨rfl, rfl⟩

/-- The approach list that a PASS leaves is that of step 2, and the claim table that of step 3. -/
theorem passSteps_lists (f : GoodFrame) (p : PassNotice) (o : Outcome) (t : Time) (s : State) :
    (passToTables p o (passToClaims f p o t (passToApproach f p o t s))).occ.approach = (passToApproach f p o t s).occ.approach ∧
    (passToTables p o (passToClaims f p o t (passToApproach f p o t s))).occ.up = s.occ.up ∧
    (passToTables p o (passToClaims f p o t (passToApproach f p o t s))).grants.claims =
      (passToClaims f p o t (passToApproach f p o t s)).grants.claims := by
  obtain ⟨_, _, htables⟩ := passToTables_frame p o (passToClaims f p o t (passToApproach f p o t s))
  obtain ⟨_, _, _, _, _, _, _, _, hclaims⟩ := passToClaims_frame f p o t (passToApproach f p o t s)
  obtain ⟨_, _, _, _, _, _, _, _, _, happroach⟩ := passToApproach_frame f p o t s
  rw [htables]
  refine ⟨?_, ?_, rfl⟩
  · rw [hclaims]
  · rw [hclaims, happroach]

theorem exec_passReceived {s : State} {bits : List Bool} {f : GoodFrame} (hf : delivered s bits .pass f)
    (hwatching : s.node.watching = true) (phase : BitVec 3) :
    exec (.passReceived bits phase) s = .next (takePass f (stampOf s phase .pass) (heardOnly s f)) := by
  show Host.Outcome.next (passReceived bits phase s) = _
  rw [passReceived, receiveFrame_heardOnly hf nofun hwatching]

theorem ne_fault_of_live {n : NodeState} (h : n.live = true) : n ≠ .fault := by
  rintro rfl
  nomatch h

/-- Settles O52: the three steps of a PASS, one after the other. -/
theorem neighbourNoticesAreKept : Obligations.NeighbourNoticesAreKept := by
  refine ⟨fun bits phase s f p o hf hwatching hp ho hup hzero hgu => ?_, fun bits phase s f p o hf hlive hp ho htaken hdown hzero hgd => ?_,
    fun bits phase s f p o hf hlive hp ho htaken hshared hswept hdown hzero hgd => ?_, fun bits phase s f p o hf hwatching hp ho => ?_⟩
  · intro lane hlane tUp pace r
    have hr : approachRecord s.working p o (stampOf s phase .pass) = r := by
      unfold approachRecord
      rw [approachLane_eq]
      rfl
    have happroach : passToApproach f p o (stampOf s phase .pass) (heardOnly s f) = recheck (enterApproach (heardOnly s f) r) (some r) := by
      rw [passToApproach_eq (s := heardOnly s f) hwatching, approachLane_eq]
      refine (if_pos ⟨hup, hzero, hgu, hlane⟩).trans ?_
      exact congrArg (fun x => recheck (enterApproach (heardOnly s f) x) (some x)) hr
    obtain ⟨hlist, hrecord, _⟩ := passSteps_lists f p o (stampOf s phase .pass) (heardOnly s f)
    obtain ⟨hmem, hone⟩ := enterApproach_entered (heardOnly s f) r
    rw [← takePass_of_outcome hp ho] at hlist hrecord
    rw [happroach, (recheck_lists _ _).1] at hlist
    refine ⟨_, exec_passReceived hf hwatching phase, ?_, fun hcode x hx hsame => ?_, fun haddress => ?_, takePass_writes s f _⟩
    · rw [hlist]
      exact hmem
    · rw [hlist] at hx
      exact hone hcode x hx hsame
    · rw [hrecord]
      show (heardFrom s f s.occ.up).lastHeard = _
      rw [heardFrom, if_pos ⟨haddress, by rw [haddress]; exact hzero⟩]
  · intro hlane tDn c
    have hwatching := watching_of_live hlive
    have hfault := ne_fault_of_live hlive
    obtain ⟨v, hv⟩ : ∃ v, v = passToApproach f p o (stampOf s phase .pass) (heardOnly s f) := ⟨_, rfl⟩
    obtain ⟨_, _, _, _, _, _, _, _, _, hframe⟩ := passToApproach_frame f p o (stampOf s phase .pass) (heardOnly s f)
    have hnode : v.node = s.node := by rw [hv, hframe]; rfl
    have hworking : v.working = s.working := by rw [hv, hframe]; rfl
    have hclaims : passToClaims f p o (stampOf s phase .pass) v = recheck (enterClaim v c) none := by
      rw [passToClaims_eq (by rw [hnode]; exact hwatching), hnode, hworking, if_pos ⟨hfault, hdown, hzero, hgd⟩, if_pos ⟨htaken, hlane⟩]
      rfl
    obtain ⟨_, _, htable⟩ := passSteps_lists f p o (stampOf s phase .pass) (heardOnly s f)
    obtain ⟨hmem, hone⟩ := enterClaim_entered v c
    rw [← takePass_of_outcome hp ho, ← hv, hclaims, (recheck_lists _ _).2] at htable
    refine ⟨_, exec_passReceived hf hwatching phase, ?_, fun hcode x hx hsame => ?_, takePass_writes s f _⟩
    · rw [htable]
      exact hmem
    · rw [htable] at hx
      exact hone hcode x hx hsame
  · have hwatching := watching_of_live hlive
    have hfault := ne_fault_of_live hlive
    obtain ⟨v, hv⟩ : ∃ v, v = passToApproach f p o (stampOf s phase .pass) (heardOnly s f) := ⟨_, rfl⟩
    obtain ⟨_, _, _, _, _, _, _, _, _, hframe⟩ := passToApproach_frame f p o (stampOf s phase .pass) (heardOnly s f)
    have hnode : v.node = s.node := by rw [hv, hframe]; rfl
    have hworking : v.working = s.working := by rw [hv, hframe]; rfl
    have hclaims : v.grants.claims = s.grants.claims := by rw [hv, hframe]; rfl
    obtain ⟨_, _, htable⟩ := passSteps_lists f p o (stampOf s phase .pass) (heardOnly s f)
    rw [← takePass_of_outcome hp ho, ← hv, passToClaims_eq (by rw [hnode]; exact hwatching), hnode, hworking,
      if_pos ⟨hfault, hdown, hzero, hgd⟩, if_neg (by simp [htaken, hshared, hswept]), hclaims] at htable
    refine ⟨_, exec_passReceived hf hwatching phase, ?_, takePass_writes s f _⟩
    rw [htable]
    split
    · rfl
    · exact hclaims
  · intro hear u ended lane sent pace r c v w
    have hr : approachRecord s.working p o (stampOf s phase .pass) = r := by
      unfold approachRecord
      rw [approachLane_eq]
      rfl
    have hv : passToApproach f p o (stampOf s phase .pass) (heardOnly s f) = v := by
      rw [passToApproach_eq (s := heardOnly s f) hwatching, approachLane_eq]
      exact if_congr Iff.rfl (congrArg (fun x => recheck (enterApproach (heardOnly s f) x) (some x)) hr) rfl
    obtain ⟨_, _, _, _, _, _, _, _, _, hframe⟩ := passToApproach_frame f p o (stampOf s phase .pass) (heardOnly s f)
    have hnode : v.node = s.node := by rw [← hv, hframe]; rfl
    have hworking : v.working = s.working := by rw [← hv, hframe]; rfl
    have hw : passToClaims f p o (stampOf s phase .pass) v = w := by
      rw [passToClaims_eq (by rw [hnode]; exact hwatching), hnode, hworking]
      rfl
    obtain ⟨_, _, _, _, _, _, _, _, hframe'⟩ := passToClaims_frame f p o (stampOf s phase .pass) v
    have hnode' : w.node = s.node := by rw [← hw, hframe']; exact hnode
    have hexec := exec_passReceived hf hwatching phase
    rw [takePass_of_outcome hp ho, hv, hw] at hexec
    refine ⟨_, hexec, ?_, fun hfault => ?_, fun hfault => ?_⟩
    · obtain ⟨_, _, htables⟩ := passToTables_frame p o w
      rw [htables]
    · exact if_neg (by rw [hnode', hfault]; nofun)
    · have hlive : w.node.live = true := by
        rw [hnode']
        cases hn : s.node <;> simp_all [NodeState.live, NodeState.watching]
      obtain ⟨hhandsets, hentries, _⟩ := passToTables_spec w p o hlive
      exact ⟨hhandsets, hentries⟩

/-! ## Grants that end in a recheck, at the binding table (R74) -/

/-- From `s` to `t` grants end without a throw: slots become free, and of an entry at most the order comes back that a grant
of its car has used. -/
def GrantsEnded (s t : State) : Prop :=
  (∀ l g, t.grants.slots.get l = some g → s.grants.slots.get l = some g) ∧
  ∀ c, t.bind.entries.get c = { s.bind.entries.get c with standing := (t.bind.entries.get c).standing } ∧
    ((∀ l g d, s.grants.slots.get l = some g → g.code = c.code → g.used ≠ .order d) →
      (t.bind.entries.get c).standing = (s.bind.entries.get c).standing)

theorem GrantsEnded.refl (s : State) : GrantsEnded s s := ⟨fun _ _ h => h, fun _ => ⟨rfl, fun _ => rfl⟩⟩

theorem GrantsEnded.trans {s t u : State} (h : GrantsEnded s t) (k : GrantsEnded t u) : GrantsEnded s u := by
  obtain ⟨hslots, hentries⟩ := h
  obtain ⟨kslots, kentries⟩ := k
  refine ⟨fun l g hg => hslots l g (kslots l g hg), fun c => ?_⟩
  obtain ⟨hentry, hstanding⟩ := hentries c
  obtain ⟨kentry, kstanding⟩ := kentries c
  refine ⟨?_, fun hused => ?_⟩
  · rw [kentry, hentry]
  · rw [kstanding fun l g d hg => hused l g d (hslots l g hg), hstanding hused]

theorem GrantsEnded.of_eq {s t : State} (hslots : t.grants.slots = s.grants.slots) (hentries : t.bind.entries = s.bind.entries) :
    GrantsEnded s t := by
  refine ⟨fun l g hg => by rw [← hslots]; exact hg, fun c => ?_⟩
  rw [hentries]
  exact ⟨rfl, fun _ => rfl⟩

theorem givenBack_other {g : Grant} {c : Car} (h : ∀ d, g.code = c.code → g.used ≠ .order d) (x : Standing) : givenBack g c x = x := by
  unfold givenBack
  split
  · next d e n hused => exact if_neg fun hsame => h d hsame.1.symm hused
  · next d e hused => exact if_neg fun hsame => h d hsame.1.symm hused
  · rfl

theorem GrantsEnded.endGrant {s : State} {l : Lane} {g : Grant} (hslot : s.grants.slots.get l = some g) (o : Outcome) :
    GrantsEnded s (endGrant s l g o) := by
  have hentries : ∀ c, (Machine.endGrant s l g o).bind.entries.get c =
      { s.bind.entries.get c with standing := givenBack g c (s.bind.entries.get c).standing } :=
    fun c => giveBack_get ((removeTarget s l).setSlot l none) g c
  refine ⟨fun m x hm => ?_, fun c => ?_⟩
  · obtain ⟨_, _, _, h⟩ := endGrant_frame s l g o
    rw [h] at hm
    by_cases hml : m = l
    · subst hml
      rw [PerLane.get_set_self] at hm
      nomatch hm
    · rwa [PerLane.get_set_ne _ _ hml] at hm
  · rw [hentries]
    exact ⟨rfl, fun hused => givenBack_other (fun d hcode => hused l g d hslot hcode) _⟩

theorem GrantsEnded.removeTaken (s : State) (g : Grant) : GrantsEnded s (removeTaken s g) := by
  unfold Machine.removeTaken
  split
  · obtain ⟨_, _, _, h⟩ := removeFrame_frame s ‹_›
    rw [h]
    exact .of_eq rfl rfl
  · exact .refl s

theorem GrantsEnded.withdraw (s : State) (l : Lane) (o : Outcome) : GrantsEnded s (withdraw s l o) := by
  unfold Machine.withdraw
  split
  · next g hslot =>
    split
    · refine (GrantsEnded.removeTaken s g).trans (.endGrant ?_ o)
      obtain ⟨_, _, hgrants⟩ := removeTaken_blades s g
      rw [hgrants]
      exact hslot
    · exact .refl s
  · exact .refl s

theorem GrantsEnded.abort (s : State) (l : Lane) : GrantsEnded s (abort s l) := by
  unfold Machine.abort
  split
  · next g hslot =>
    split
    · obtain ⟨_, hdown⟩ := standDownBlade_frame s l
      refine GrantsEnded.trans (t := standDownBlade s l) ?_ (.endGrant ?_ .aborted)
      · rw [hdown]
        exact .of_eq rfl rfl
      · rw [hdown]
        exact hslot
    · exact .refl s
  · exact .refl s

theorem GrantsEnded.recheck (s : State) (r : Option ApproachRecord) : GrantsEnded s (recheck s r) :=
  recheck_keeps (P := GrantsEnded s) (fun t l h => h.trans (.withdraw t l _)) (fun t l h => h.trans (.abort t l)) r (.refl s)

theorem GrantsEnded.passToApproach (f : GoodFrame) (p : PassNotice) (o : Outcome) (t : Time) (s : State) :
    GrantsEnded s (passToApproach f p o t s) := by
  unfold Machine.passToApproach approachNotice
  simp only
  split
  · split
    · refine GrantsEnded.trans ?_ (.recheck _ _)
      obtain ⟨_, _, h⟩ := enterApproach_frame s (approachRecord s.working p o t)
      rw [h]
      exact .of_eq rfl rfl
    · exact .refl s
  · exact .refl s

theorem GrantsEnded.passToClaims {s : State} (h : s.node.watching = true) (f : GoodFrame) (p : PassNotice) (o : Outcome) (t : Time) :
    GrantsEnded s (passToClaims f p o t s) := by
  rw [passToClaims_eq h]
  split
  · split
    · refine GrantsEnded.trans ?_ (.recheck _ _)
      obtain ⟨_, _, h⟩ := enterClaim_frame s (claimOf f.originator p t)
      rw [h]
      exact .of_eq rfl rfl
    · split
      · exact .of_eq rfl rfl
      · exact .refl s
  · exact .refl s

/-- R44: what a PASS does at the handset port reads the entries of the port and the handsets that the cars are bound to. -/
theorem handsetsAfterPass_congr {s t : State} (hhandsets : t.handsets = s.handsets)
    (hbound : ∀ c, (t.bind.entries.get c).handset = (s.bind.entries.get c).handset) (p : PassNotice) :
    handsetsAfterPass t p = handsetsAfterPass s p := by
  unfold handsetsAfterPass
  rw [hhandsets]
  simp only [hbound]

/-- Settles O53: steps 4 and 5, and a PASS of no neighbour. -/
theorem passConsumesAndCounts : Obligations.PassConsumesAndCounts := by
  refine ⟨fun bits phase s f p o hf hlive hp ho => ?_, fun bits phase s f hf hwatching ho => ?_,
    fun bits phase s f p hf hlive hp hup hdown hupRecord hdownRecord => ?_⟩
  · have hwatching := watching_of_live hlive
    obtain ⟨v, hv⟩ : ∃ v, v = passToApproach f p o (stampOf s phase .pass) (heardOnly s f) := ⟨_, rfl⟩
    obtain ⟨w, hw⟩ : ∃ w, w = passToClaims f p o (stampOf s phase .pass) v := ⟨_, rfl⟩
    obtain ⟨_, _, _, _, _, _, _, _, _, happroach⟩ := passToApproach_frame f p o (stampOf s phase .pass) (heardOnly s f)
    obtain ⟨_, _, _, _, _, _, _, _, hclaims⟩ := passToClaims_frame f p o (stampOf s phase .pass) v
    have hnode : v.node = s.node := by rw [hv, happroach]; rfl
    have hnode' : w.node = s.node := by rw [hw, hclaims]; exact hnode
    have hhandsets : w.handsets = s.handsets := by
      rw [hw, hclaims, hv, happroach]
      rfl
    have hended : GrantsEnded s w := by
      have hstep : GrantsEnded s v := by
        rw [hv]
        exact GrantsEnded.trans (.of_eq rfl rfl) (.passToApproach f p o _ (heardOnly s f))
      rw [hw]
      exact hstep.trans (.passToClaims (by rw [hnode]; exact hwatching) f p o _)
    obtain ⟨_, hentries⟩ := hended
    have hbound : ∀ c, (w.bind.entries.get c).handset = (s.bind.entries.get c).handset := fun c => by rw [(hentries c).1]
    obtain ⟨hports, htable, _⟩ := passToTables_spec w p o (by rw [hnode']; exact hlive)
    have hexec := exec_passReceived hf hwatching phase
    rw [takePass_of_outcome hp ho, ← hv, ← hw] at hexec
    refine ⟨_, hexec, hports.trans (handsetsAfterPass_congr hhandsets hbound p), fun c => ?_, fun c hused => ?_⟩
    · rw [htable, (hentries c).1]
      exact ⟨rfl, rfl, rfl, rfl⟩
    · rw [htable, (hentries c).2 hused]
  · rw [exec_passReceived hf hwatching, takePass_of_no_outcome ho]
  · intro ended
    have hwatching := watching_of_live hlive
    have hunheard : heardOnly s f = ended := by
      have hup' : heardFrom s f s.occ.up = s.occ.up := if_neg fun h => hupRecord h.1.symm
      have hdown' : heardFrom s f s.occ.down = s.occ.down := if_neg fun h => hdownRecord h.1.symm
      rw [heardOnly, hup', hdown']
    have hexec := exec_passReceived hf hwatching phase
    rw [hunheard] at hexec
    refine ⟨fun ho => ?_, fun o ho => ?_⟩
    · rw [hexec, takePass_of_no_outcome (by rw [← hp]; exact ho)]
    · have happroach : passToApproach f p o (stampOf s phase .pass) ended = ended := by
        rw [passToApproach_eq (s := ended) hwatching]
        exact if_neg fun h => hup h.1
      have hclaims : passToClaims f p o (stampOf s phase .pass) ended = ended := by
        rw [passToClaims_eq (s := ended) hwatching]
        exact if_neg fun h => hdown h.2.1
      rw [takePass_of_outcome hp ho, happroach, hclaims] at hexec
      obtain ⟨hports, htable, hwrites⟩ := passToTables_spec ended p o hlive
      refine ⟨_, hexec, ?_, htable⟩
      rw [hports] at hwrites
      exact hwrites

end Sys2Proof.Machine
end


/-! # Grants that end without a throw, and the rechecks (sections 05, 08) -/

section
namespace Sys2Proof.Machine

open Sys2Proof.Safety

/-! ## The end of a grant (R124 to R127) -/

theorem giveBack_frame (s : State) (g : Grant) : ∃ e, giveBack s g = { s with bind := { s.bind with entries := e } } := by
  unfold giveBack
  split
  · exact ⟨_, rfl⟩
  · exact restoreOrder_frame s _ _

theorem queueAfter_arrived {n : NodeState} {now : Time} {f : TxFrame} {q : List TxFrame} (h : arrived now f.deadline = true) :
    queueAfter n now f q = q :=
  if_pos (by rw [h, Bool.or_true])

/-- R116, R154: a PASS handed in by a node in SYNC or RUN, its deadline ahead. -/
theorem queuePass_queuedIn {s : State} (hlive : s.node.live = true) (p : PassBody) {deadline : Time} (owner : Owner)
    (hahead : arrived s.now deadline = false) :
    queuedIn { id := s.line.nextId, level := 0, originator := s.working.address, body := .pass p, deadline := deadline,
               queued := s.now, owner := owner } s.line.queue (queuePass s p deadline owner).line.queue := by
  have hsetup : s.node ≠ .setup := by
    intro h
    rw [h] at hlive
    nomatch hlive
  have hqueued := queueAfter_queuedIn s.node s.now (newFrame s 0 (.pass p) deadline owner) s.line.queue
    (acceptsFrame_of_live hlive _) hahead
  simp only [newFrame, if_neg hsetup] at hqueued
  simp only [queuePass, handIn, newFrame, if_neg hsetup]
  exact hqueued

/-- R74, R124, R126, R127: from `s` to `t` the grant `g` of lane `l` ends in `o`, `r` being the state that its notice is handed
in to. -/
def grantEnds (s r t : State) (l : Lane) (g : Grant) (o : Outcome) : Prop :=
  (∃ n, endsWith s t l g o n ∧
    (s.node = .run → arrived s.now (Time.plus g.tRef 3125) = false →
      queuedIn { id := r.line.nextId, level := 0, originator := s.working.address, body := .pass n,
                 deadline := Time.plus g.tRef 3125, queued := s.now, owner := .grantUnit l } r.line.queue t.line.queue) ∧
    (arrived s.now (Time.plus g.tRef 3125) = true → t.line.queue = r.line.queue)) ∧
  (∀ c, t.bind.entries.get c = { s.bind.entries.get c with standing := givenBack g c (s.bind.entries.get c).standing }) ∧
  t = { r with
    bind := { r.bind with entries := t.bind.entries }
    occ := { r.occ with list := r.occ.list.filter (fun e => !decide (e.link = some l)) }
    grants := { r.grants with slots := r.grants.slots.set l none }
    line := { r.line with queue := t.line.queue, nextId := r.line.nextId + 1 } }

/-- R124 steps 2 to 5, R126 steps 2 to 5. -/
theorem grantEnds_endGrant (s : State) (l : Lane) (g : Grant) (o : Outcome) : grantEnds s s (endGrant s l g o) l g o := by
  obtain ⟨u, hu⟩ : ∃ u : State, u = (removeTarget s l).setSlot l none := ⟨_, rfl⟩
  obtain ⟨v, hv⟩ : ∃ v : State, v = giveBack u g := ⟨_, rfl⟩
  have hworking : u.working = s.working := by rw [hu]; rfl
  have hentries : u.bind.entries = s.bind.entries := by rw [hu]; rfl
  have hnotice := endNotice_endsWith s u l g o hworking hentries
  have hend : endGrant s l g o = queuePass v (endNotice v l g o) (Time.plus g.tRef Config.passDeadline) (.grantUnit l) := by
    rw [hv, hu]
    rfl
  have hgiven : ∀ c, v.bind.entries.get c = { s.bind.entries.get c with standing := givenBack g c (s.bind.entries.get c).standing } := by
    intro c
    rw [hv, giveBack_get, hentries]
  obtain ⟨e, hframe⟩ := giveBack_frame u g
  rw [← hv] at hnotice hframe
  rw [hframe, hu] at hend hgiven
  rw [hframe, hu] at hnotice
  rw [hend]
  refine ⟨⟨_, hnotice, fun hrun hahead => ?_, fun hdue => queueAfter_arrived hdue⟩, hgiven, rfl⟩
  exact queuePass_queuedIn (s := { (removeTarget s l).setSlot l none with
    bind := { ((removeTarget s l).setSlot l none).bind with entries := e } }) ((live_iff _).2 (.inr hrun)) _ _ hahead

/-- Of what moves a queue, each frame was held or bears a number of the event. -/
theorem QueueMoved.ids {allowed : FrameBody → Prop} {node : NodeState} {now : Time} {q r : List TxFrame} {n m : Nat}
    (h : QueueMoved allowed node now q n r m) : n ≤ m ∧ ∀ f ∈ r, f ∈ q ∨ n ≤ f.id := by
  induction h with
  | refl => exact ⟨Nat.le_refl _, fun f hf => .inl hf⟩
  | handedIn _ g hid _ _ _ ih =>
    obtain ⟨hle, hmem⟩ := ih
    refine ⟨by omega, fun f hf => ?_⟩
    rcases mem_queueAfter hf with rfl | hf
    · exact .inr (by omega)
    · exact hmem f hf
  | takenOut _ p ih => exact ⟨ih.1, fun f hf => ih.2 f (List.mem_of_mem_filter hf)⟩

/-- R155: a frame taken out is in the queue no more, whatever a replay feeds. -/
theorem removeFrame_gone {s : State} {id : Nat} (hid : id < s.line.nextId) :
    s.line.nextId ≤ (removeFrame s id).line.nextId ∧ ∀ f ∈ (removeFrame s id).line.queue, f.id ≠ id := by
  unfold removeFrame
  split
  · obtain ⟨hle, hmem⟩ := (feed_queues (s.setQueue (s.line.queue.filter (fun f => decide (f.id ≠ id))))).moved.ids
    refine ⟨hle, fun f hf => ?_⟩
    rcases hmem f hf with hold | hnew
    · simpa using (List.mem_filter.1 hold).2
    · have : s.line.nextId ≤ f.id := hnew
      omega
  · next hnone =>
    refine ⟨Nat.le_refl _, fun f hf hsame => hnone ?_⟩
    exact List.any_eq_true.2 ⟨f, hf, by simpa using hsame⟩

theorem queuedIn_mem {f x : TxFrame} {old new : List TxFrame} (h : queuedIn f old new) (hx : x ∈ new) : x = f ∨ x ∈ old := by
  obtain ⟨hroom, hfull⟩ := h
  by_cases hlength : old.length < 8
  · rw [hroom hlength] at hx
    exact mem_enterFrame.1 hx
  · obtain ⟨hdrop, hnone⟩ := hfull (by omega)
    by_cases h : ∃ i v, dropped old i v
    · obtain ⟨i, v, hiv⟩ := h
      rw [hdrop i v hiv] at hx
      exact (mem_enterFrame.1 hx).imp_right List.mem_of_mem_eraseIdx
    · rw [hnone fun i v hiv => h ⟨i, v, hiv⟩] at hx
      exact .inr hx

/-- R124, R125: a PROVISIONAL grant whose frame is `id` is withdrawn. -/
theorem withdraw_spec {s : State} {l : Lane} {g : Grant} {id : Nat} (hslot : s.grants.slots.get l = some g)
    (hstate : g.state = .provisional) (hframe : g.frame = some id) (hrun : s.node = .run) (o : Outcome) :
    grantEnds s (withoutFrame s id) (withdraw s l o) l g o ∧
    (id < s.line.nextId → ∀ f ∈ (withdraw s l o).line.queue, f.id ≠ id) := by
  obtain ⟨r, hr⟩ : ∃ r, r = withoutFrame s id := ⟨_, rfl⟩
  have hremoved : removeFrame s id = r := by rw [hr, removeFrame_eq (.inr ((live_iff _).2 (.inr hrun)))]
  have hwithdraw : withdraw s l o = endGrant r l g o := by
    simp only [withdraw, hslot, hstate, removeTaken, hframe, hremoved, if_true]
  have hfields := withoutFrame_fields s id
  rw [← hr] at hfields
  have hends := grantEnds_endGrant r l g o
  rw [← hr, hwithdraw]
  refine ⟨?_, fun hid f hf => ?_⟩
  · obtain ⟨⟨n, hnotice, hqueued, hdropped⟩, hentries, heq⟩ := hends
    have hnow : r.now = s.now := by rw [hfields]
    have hnode : r.node = s.node := by rw [hfields]
    have hworking : r.working = s.working := by rw [hfields]
    have hbind : r.bind.entries = s.bind.entries := by rw [hfields]
    refine ⟨⟨n, ?_, ?_, ?_⟩, ?_, heq⟩
    · simp only [endsWith, hworking, hbind] at hnotice ⊢
      exact hnotice
    · rw [hnow, hnode, hworking] at hqueued
      exact hqueued
    · rw [hnow] at hdropped
      exact hdropped
    · rw [hbind] at hentries
      exact hentries
  · obtain ⟨hle, hgone⟩ := removeFrame_gone hid
    rw [hremoved] at hle hgone
    rcases mem_queueAfter hf with rfl | hf
    · have hnew : (newFrame (giveBack ((removeTarget r l).setSlot l none) g) 0
        (.pass (endNotice (giveBack ((removeTarget r l).setSlot l none) g) l g o)) (Time.plus g.tRef Config.passDeadline)
        (.grantUnit l)).id = r.line.nextId := by
        obtain ⟨_, h⟩ := giveBack_frame ((removeTarget r l).setSlot l none) g
        rw [h]
        rfl
      rw [hnew]
      omega
    · obtain ⟨_, h⟩ := giveBack_frame ((removeTarget r l).setSlot l none) g
      rw [h] at hf
      exact hgone f hf

theorem exec_grantLate_due {l : Lane} {s : State} {g : Grant} (hslot : s.grants.slots.get l = some g)
    (hdue : arrived s.now g.throwAt = true) : exec (.grantLate l) s = .next (withdraw s l .late) := by
  show Host.Outcome.next (grantLate l s) = _
  simp only [grantLate, hslot, hdue, if_true]

/-- Settles O39: the withdrawal at the throw time, and at the frame's deadline. -/
theorem grantEndsLate : Obligations.GrantEndsLate := by
  refine ⟨fun l s g id hslot hstate hdue hframe hrun => ?_, fun i l s f g hget howner htaken hslot hstate hframe hdeadline hdue => ?_⟩
  · intro r
    obtain ⟨⟨⟨n, hnotice, hqueued, hdropped⟩, hentries, heq⟩, hgone⟩ := withdraw_spec hslot hstate hframe hrun .late
    have hfields := withoutFrame_fields s id
    rw [hfields] at heq
    refine ⟨_, n, exec_grantLate_due hslot hdue, ?_, ?_, ?_, hgone, hnotice, hqueued hrun, hdropped, hentries, ?_⟩
    · rw [heq]
    · rw [heq]
    · rw [heq]
    · rw [heq]
  · rw [exec_frameDeadline_due hget (by rw [hdeadline]; exact hdue), exec_grantLate_due hslot hdue]
    simp only [removeLate, howner, htaken, takenRemoved, hslot, hstate, hframe, and_self, if_true]

/-! ## The rechecks (R121 to R123) -/

/-- The lanes that are rechecked before lane `l`, and after it. -/
def lowerLanes (l : Lane) : List Lane := Lane.all.filter (fun m => decide (m.num < l.num))

def higherLanes (s : State) (l : Lane) : List Lane := Lane.all.filter (fun m => decide (l.num < m.num ∧ m.num ≤ s.working.lanes))

theorem not_mem_lowerLanes (l : Lane) : l ∉ lowerLanes l := by simp [lowerLanes]

theorem not_mem_higherLanes (s : State) (l : Lane) : l ∉ higherLanes s l := by simp [higherLanes]

/-- R121: the slots before a lane, the slot of the lane, and the slots after it. -/
theorem recheck_around {s : State} {l : Lane} (h : l.num ≤ s.working.lanes) (r : Option ApproachRecord) :
    recheck s r = (higherLanes s l).foldl (recheckSlot r) (recheckSlot r ((lowerLanes l).foldl (recheckSlot r) s) l) := by
  unfold recheck
  rw [lanes_around l s.working.lanes h, List.foldl_append, List.foldl_cons]
  rfl

/-- A slot that is not rechecked, or is left as it is, keeps the state, and so do free slots. -/
theorem foldl_recheckSlot_id {r : Option ApproachRecord} {s : State} {ls : List Lane} (h : ∀ m ∈ ls, recheckSlot r s m = s) :
    ls.foldl (recheckSlot r) s = s := by
  induction ls with
  | nil => rfl
  | cons m ls ih =>
    rw [List.foldl_cons, h m List.mem_cons_self]
    exact ih fun x hx => h x (List.mem_cons_of_mem _ hx)

theorem recheckSlot_free {r : Option ApproachRecord} {s : State} {l : Lane} (h : s.grants.slots.get l = none) :
    recheckSlot r s l = s := by
  rw [recheckSlot, h]

theorem recheckSlot_provisional {s : State} {l : Lane} {g : Grant} (hslot : s.grants.slots.get l = some g)
    (hstate : g.state = .provisional) (r : Option ApproachRecord) :
    recheckSlot r s l = if provisionalConflict s l g then withdraw s l .yielded else s := by
  simp only [recheckSlot, hslot, hstate]

theorem withdraw_slot {s : State} {l : Lane} {g : Grant} (hslot : s.grants.slots.get l = some g) (hstate : g.state = .provisional)
    (o : Outcome) : (withdraw s l o).grants.slots.get l = none := by
  have hwithdraw : withdraw s l o = endGrant (removeTaken s g) l g o := by simp only [withdraw, hslot, hstate, if_true]
  obtain ⟨_, _, hslots⟩ := endGrant_blades (removeTaken s g) l g o
  rw [hwithdraw, hslots, PerLane.get_set_self]

/-- A recheck takes away only: what a grant fails after it, the grant fails before it. -/
theorem recheckMet_before {r : Option ApproachRecord} {ls : List Lane} {s : State} {l : Lane} {g : Grant} (hl : l ∉ ls)
    (h : recheckMet (ls.foldl (recheckSlot r) s) l g) : recheckMet s l g := by
  have hlist : ∀ e ∈ (ls.foldl (recheckSlot r) s).occ.list, e ∈ s.occ.list := by
    obtain ⟨_, _, p, hfilter⟩ := foldl_recheckSlot_other r l ls hl s
    rw [hfilter]
    exact fun e he => List.mem_of_mem_filter he
  obtain ⟨_, _, _, _, _, _, _, hframe⟩ := foldl_recheckSlot_frame r ls s
  rw [hframe] at h hlist
  rcases h with (⟨e, he, h⟩ | h) | (⟨e, he, h⟩ | h) | h | h
  · exact .inl (.inl ⟨e, hlist e he, h⟩)
  · exact .inl (.inr h)
  · exact .inr (.inl (.inl ⟨e, hlist e he, h⟩))
  · exact .inr (.inl (.inr h))
  · exact .inr (.inr (.inl h))
  · exact .inr (.inr (.inr h))

theorem committedConflict_iff (l : Lane) (g : Grant) (r : ApproachRecord) : committedConflict l g r = true ↔
    (r.code = 0 ∨ r.outcome = .straight ∨ r.outcome = .swept ∨ r.outcome = .notReady) ∧ r.code ≠ g.code ∧
      ((r.lane = l ∧ Time.atOrBefore g.throwAt r.bladeTime = true ∧ Time.atOrBefore r.bladeTime g.releaseAt = true) ∨
        (r.lane = g.target ∧ r.window.conflicts g.window = true)) := by
  simp [committedConflict, ApproachRecord.cannotYield, Window.contains, and_assoc, or_assoc]

theorem abort_armed {s : State} {l : Lane} {g : Grant} (hslot : s.grants.slots.get l = some g) (hstate : g.state = .committed)
    (harmed : (s.blades.get l).state = .armed) : abort s l = endGrant (standDownBlade s l) l g .aborted := by
  simp only [abort, hslot, hstate, harmed, and_self, if_true]

theorem recheckSlot_committed {s : State} {l : Lane} {g : Grant} (hslot : s.grants.slots.get l = some g)
    (hstate : g.state = .committed) (r : ApproachRecord) :
    recheckSlot (some r) s l = if committedConflict l g r then abort s l else s := by
  simp only [recheckSlot, hslot, hstate]

/-- R121, R123: the slot of a COMMITTED grant is free after its recheck, or as it was. -/
theorem recheckSlot_committed_slot {s : State} {l : Lane} {g : Grant} (hslot : s.grants.slots.get l = some g)
    (hstate : g.state = .committed) (r : Option ApproachRecord) :
    (recheckSlot r s l).grants.slots.get l = none ∨ (recheckSlot r s l).grants.slots.get l = some g := by
  have habort : (abort s l).grants.slots.get l = none ∨ (abort s l).grants.slots.get l = some g := by
    by_cases harmed : (s.blades.get l).state = .armed
    · obtain ⟨_, _, hslots⟩ := endGrant_blades (standDownBlade s l) l g .aborted
      rw [abort_armed hslot hstate harmed, hslots, PerLane.get_set_self]
      exact .inl rfl
    · simp only [abort, hslot, harmed, and_false, if_false]
      exact .inr trivial
  cases r with
  | none =>
    simp only [recheckSlot, hslot, hstate]
    exact .inr trivial
  | some r =>
    rw [recheckSlot_committed hslot hstate]
    split
    · exact habort
    · exact .inr hslot

/-- Settles O40: what a recheck leaves, keeps and ends of the PROVISIONAL grants. -/
theorem recheckLeavesNoConflict : Obligations.RecheckLeavesNoConflict := by
  refine ⟨fun s r l g hlane hslot hstate => ?_, fun s r l g hslot hstate hmet => ?_, fun s r l g hslot hstate hmet hlane hothers => ?_⟩
  · obtain ⟨u, hu⟩ : ∃ u, u = (lowerLanes l).foldl (recheckSlot r) s := ⟨_, rfl⟩
    obtain ⟨v, hv⟩ : ∃ v, v = recheckSlot r u l := ⟨_, rfl⟩
    have haround := recheck_around hlane r
    rw [← hu, ← hv] at haround
    obtain ⟨hkept, _⟩ := foldl_recheckSlot_other r l (higherLanes s l) (not_mem_higherLanes s l) v
    have hvslot : v.grants.slots.get l = some g := by rw [← hkept, ← haround, hslot]
    have hunmet : ¬recheckMet v l g := by
      intro hmet
      have hnone : v.grants.slots.get l ≠ none := by rw [hvslot]; nofun
      cases huslot : u.grants.slots.get l with
      | none => exact hnone (by rw [hv, recheckSlot_free huslot, huslot])
      | some x =>
        cases hx : x.state with
        | provisional =>
          rw [recheckSlot_provisional huslot hx] at hv
          split at hv
          · exact hnone (by rw [hv, withdraw_slot huslot hx])
          · next hquiet =>
            rw [hv, huslot, Option.some.injEq] at hvslot
            rw [hv, ← hvslot, ← provisionalConflict_iff] at hmet
            exact hquiet hmet
        | committed =>
          rcases recheckSlot_committed_slot huslot hx r with h | h
          · exact hnone (by rw [hv, h])
          · rw [hv, h, Option.some.injEq] at hvslot
            rw [hvslot, hstate] at hx
            nomatch hx
    rw [haround]
    exact fun h => hunmet (recheckMet_before (not_mem_higherLanes s l) h)
  · obtain ⟨u, hu⟩ : ∃ u, u = (lowerLanes l).foldl (recheckSlot r) s := ⟨_, rfl⟩
    have hstands : ∀ t : State, t.grants.slots.get l = some g → ¬recheckMet t l g → recheckSlot r t l = t := by
      intro t ht hunmet
      rw [recheckSlot_provisional ht hstate, if_neg fun h => hunmet ((provisionalConflict_iff t l g).1 h)]
    refine ⟨?_, fun hothers => foldl_recheckSlot_id fun m _ => ?_⟩
    · by_cases hlane : l.num ≤ s.working.lanes
      · have hlower := foldl_recheckSlot_other r l (lowerLanes l) (not_mem_lowerLanes l) s
        have hu' := hstands u (by rw [hu, hlower.1, hslot]) (fun h => hmet (recheckMet_before (not_mem_lowerLanes l) (by rw [← hu]; exact h)))
        have hhigher := foldl_recheckSlot_other r l (higherLanes s l) (not_mem_higherLanes s l) u
        rw [recheck_around hlane, ← hu, hu', hhigher.1, hu, hlower.1, hslot]
      · have hother := foldl_recheckSlot_other r l (Lane.all.filter (fun m => decide (m.num ≤ s.working.lanes)))
          (by simp [hlane]) s
        exact hother.1.trans hslot
    · by_cases hml : m = l
      · rw [hml]
        exact hstands s hslot hmet
      · exact recheckSlot_free (hothers m hml)
  · have hconflict : provisionalConflict s l g = true := (provisionalConflict_iff s l g).2 hmet
    have hfree : ∀ m ∈ lowerLanes l, s.grants.slots.get m = none := fun m hm =>
      hothers m fun h => not_mem_lowerLanes l (h ▸ hm)
    have hwithdrawn : recheck s r = withdraw s l .yielded := by
      have hhigher : ∀ m ∈ higherLanes s l, (recheckSlot r s l).grants.slots.get m = none := fun m hm => by
        have hml : m ≠ l := fun h => not_mem_higherLanes s l (h ▸ hm)
        obtain ⟨hkept, _⟩ := recheckSlot_other r s l m hml
        exact hkept.trans (hothers m hml)
      rw [recheck_around hlane, foldl_recheckSlot_free r _ s hfree, foldl_recheckSlot_free r _ _ hhigher,
        recheckSlot_provisional hslot hstate, if_pos hconflict]
    refine ⟨by rw [hwithdrawn, withdraw_slot hslot hstate], fun id hframe hrun => ?_⟩
    intro t u
    obtain ⟨⟨⟨n, hnotice, hqueued, hdropped⟩, hentries, heq⟩, hgone⟩ := withdraw_spec hslot hstate hframe hrun .yielded
    have hfields := withoutFrame_fields s id
    rw [hfields] at heq
    rw [← hwithdrawn] at hnotice hqueued hdropped hentries heq hgone
    have hgrants : t.grants = { s.grants with slots := s.grants.slots.set l none } := congrArg State.grants heq
    have hocc : t.occ = { s.occ with list := s.occ.list.filter (fun e => !decide (e.link = some l)) } := congrArg State.occ heq
    refine ⟨hgrants, hocc, hgone, ⟨n, hnotice, hqueued hrun, hdropped⟩, hentries, ?_⟩
    rw [hgrants, hocc]
    exact heq

/-- R139: the blade of an abort. -/
theorem standDownBlade_armed {s : State} {l : Lane} (harmed : (s.blades.get l).state = .armed) : standDownBlade s l = { s with
    blades := s.blades.set l { state := .cooling, throwAt := none, releaseAt := none, coolingEnd := some (Time.plus s.now 625),
                               coil := false, drivenSince := none } } := if_pos harmed

/-- R126: a COMMITTED grant whose blade is ARMED is aborted. -/
theorem grantEnds_abort {s : State} {l : Lane} {g : Grant} (hslot : s.grants.slots.get l = some g) (hstate : g.state = .committed)
    (harmed : (s.blades.get l).state = .armed) : grantEnds s (standDownBlade s l) (abort s l) l g .aborted := by
  have hends := grantEnds_endGrant (standDownBlade s l) l g .aborted
  rw [← abort_armed hslot hstate harmed] at hends
  rw [standDownBlade_armed harmed] at hends ⊢
  exact hends

/-- Settles O41: the slot's own turn in the recheck. -/
theorem cannotYieldRecordAbortsTheArmedGrant : Obligations.CannotYieldRecordAbortsTheArmedGrant := by
  intro s r l g hlane hslot hstate harmed conflict t u v
  have ht : t = (higherLanes s l).foldl (recheckSlot (some r)) v := recheck_around hlane (some r)
  obtain ⟨huslot, hublade, _⟩ := foldl_recheckSlot_other (some r) l (lowerLanes l) (not_mem_lowerLanes l) s
  have huslot : u.grants.slots.get l = some g := huslot.trans hslot
  have hublade : u.blades.get l = s.blades.get l := hublade
  have hunow : u.now = s.now ∧ u.node = s.node ∧ u.working = s.working := by
    obtain ⟨_, _, _, _, _, _, _, h⟩ := foldl_recheckSlot_frame (some r) (lowerLanes l) s
    have hu : u = (lowerLanes l).foldl (recheckSlot (some r)) s := rfl
    rw [hu, h]
    exact ⟨rfl, rfl, rfl⟩
  obtain ⟨hunow, hunode, huworking⟩ := hunow
  have huarmed : (u.blades.get l).state = .armed := by rw [hublade, harmed]
  obtain ⟨htslot, htblade, p, htlist⟩ := foldl_recheckSlot_other (some r) l (higherLanes s l) (not_mem_higherLanes s l) v
  rw [← ht] at htslot htblade htlist
  have hconflict : committedConflict l g r = true ↔ conflict := committedConflict_iff l g r
  refine ⟨ht, fun hothers => ?_, fun hquiet => ?_, fun hmet => ?_⟩
  · have hu : u = s := foldl_recheckSlot_free (some r) (lowerLanes l) s fun m hm => hothers m fun h => not_mem_lowerLanes l (h ▸ hm)
    refine ⟨hu, ?_⟩
    rw [ht]
    refine foldl_recheckSlot_free (some r) (higherLanes s l) v fun m hm => ?_
    have hml : m ≠ l := fun h => not_mem_higherLanes s l (h ▸ hm)
    obtain ⟨hkept, _⟩ := recheckSlot_other (some r) u l m hml
    exact hkept.trans (by rw [hu]; exact hothers m hml)
  · have hv : v = u := (recheckSlot_committed huslot hstate r).trans (if_neg fun h => hquiet (hconflict.1 h))
    refine ⟨hv, ?_, ?_⟩
    · rw [htslot, hv, huslot]
    · rw [htblade, hv, hublade]
  · have hv : v = abort u l := (recheckSlot_committed huslot hstate r).trans (if_pos (hconflict.2 hmet))
    obtain ⟨⟨n, hnotice, hqueued, hdropped⟩, hentries, heq⟩ := grantEnds_abort huslot hstate huarmed
    rw [← hv] at hnotice hqueued hdropped hentries heq
    rw [standDownBlade_armed huarmed] at hqueued hdropped heq
    rw [hunode, huworking] at hqueued
    rw [← hunow]
    refine ⟨?_, ?_, fun e he => ?_, hentries, ⟨n, hnotice, hqueued, hdropped⟩, heq⟩
    · rw [htslot, congrArg State.grants heq]
      exact PerLane.get_set_self _ _ _
    · rw [htblade, congrArg State.blades heq]
      exact PerLane.get_set_self _ _ _
    · rw [htlist, congrArg State.occ heq] at he
      simpa using (List.mem_filter.1 (List.mem_filter.1 he).1).2

end Sys2Proof.Machine
end


/-! # Full lists, lane holds and the full transmit queue (R83 to R87, R128, R131, R156) -/

section
namespace Sys2Proof.Machine

open Sys2Proof.Safety

/-! ## Lane holds (R84) -/

theorem arrived_of_before {now e : Time} (h : Time.before now e = true) : arrived now e = false := by
  rw [Time.before_iff] at h
  have hswap := Time.diff_swap now e (by omega)
  rw [← Bool.not_eq_true, arrived_iff]
  omega

/-- R84: a hold request for a time ahead leaves the lane held at least until then. -/
theorem holdRequest_held {s : State} {l : Lane} {e : Time} (hahead : Time.before s.now e = true) (hl : l.num ≤ s.working.lanes) :
    ∃ u, (holdRequest s l e).occ.holds.get l = some u ∧ (u = e ∨ (s.occ.holds.get l = some u ∧ Time.before u e = false)) := by
  have hget : (holdRequest s l e).occ.holds.get l = raisedHold s.now (s.occ.holds.get l) e := by
    rw [holdRequest, if_pos hl]
    exact PerLane.get_set_self _ _ _
  have hquiet : ¬arrived s.now e = true := by rw [arrived_of_before hahead]; nofun
  rw [hget]
  unfold raisedHold
  rw [if_neg hquiet]
  cases hheld : s.occ.holds.get l with
  | none => exact ⟨e, rfl, .inl rfl⟩
  | some t =>
    by_cases hbefore : Time.before t e = true
    · exact ⟨e, if_pos hbefore, .inl rfl⟩
    · exact ⟨t, if_neg hbefore, .inr ⟨rfl, Bool.eq_false_iff.2 hbefore⟩⟩

/-! ## The entry that ends first (R83, R87, R131) -/

/-- R83: window ends in order as seen from one time; an open end is the last. -/
def endKey (now : Time) : WindowEnd → WithTop Int
  | .at t => (Time.diff now t : WithTop Int)
  | .open => ⊤

theorem before_iff_key {now a b : Time} (ha : -1073741824 < Time.diff now a ∧ Time.diff now a < 1073741824)
    (hb : -1073741824 < Time.diff now b ∧ Time.diff now b < 1073741824) :
    Time.before a b = true ↔ Time.diff now a < Time.diff now b := by
  rw [Time.before_iff, Time.diff_between ha hb]
  omega

theorem endBefore_iff_key {now : Time} {a b : WindowEnd}
    (ha : ∀ t, a = .at t → -1073741824 < Time.diff now t ∧ Time.diff now t < 1073741824)
    (hb : ∀ t, b = .at t → -1073741824 < Time.diff now t ∧ Time.diff now t < 1073741824) :
    WindowEnd.before a b = true ↔ endKey now a < endKey now b := by
  match a, b, ha, hb with
  | .open, _, _, _ => simp [WindowEnd.before, endKey]
  | .at t, .open, _, _ => simp [WindowEnd.before, endKey]
  | .at t, .at u, ha, hb => simp [WindowEnd.before, endKey, before_iff_key (ha t rfl) (hb u rfl)]

/-- The element that a full list evicts: under the order of a key none is before it, and it is before every earlier one. -/
theorem earliest_victim {α β : Type} [LinearOrder β] {isBefore : α → α → Bool} {key : α → β} {xs : List α} (hne : xs ≠ [])
    (hkey : ∀ a ∈ xs, ∀ b ∈ xs, isBefore a b = true ↔ key a < key b) :
    ∃ v, xs[earliest isBefore xs]? = some v ∧ (∀ x ∈ xs, isBefore x v = false) ∧
      ∀ x ∈ xs.take (earliest isBefore xs), isBefore v x = true := by
  obtain ⟨v, hv, hleast, hfirst⟩ := earliest_spec hne hkey
  have hvmem := List.mem_of_getElem? hv
  refine ⟨v, hv, fun x hx => ?_, fun x hx => ?_⟩
  · rw [← Bool.not_eq_true, hkey x hx v hvmem]
    exact not_lt.2 (hleast x hx)
  · exact (hkey v hvmem x (List.mem_of_mem_take hx)).2 (hfirst x hx)

theorem withoutCode_eq (code : CarCode) (rs : List ApproachRecord) :
    withoutCode code rs = rs.filter (fun r => decide (code = 0 ∨ r.code ≠ code)) := by
  refine List.filter_congr fun r _ => ?_
  by_cases h : code = 0 <;> simp [h]

theorem makeApproachRoom_room {s : State} (h : s.occ.approach.length < 16) : makeApproachRoom s = s := if_pos h

theorem makeApproachRoom_full {s : State} {v : ApproachRecord} (h : s.occ.approach.length = 16)
    (hv : s.occ.approach[earliest (fun a b : ApproachRecord => Time.before a.window.stop b.window.stop) s.occ.approach]? = some v) :
    makeApproachRoom s = holdRequest (s.setApproach (s.occ.approach.eraseIdx
      (earliest (fun a b : ApproachRecord => Time.before a.window.stop b.window.stop) s.occ.approach))) v.lane v.window.stop := by
  have hfull : ¬s.occ.approach.length < Config.approachCap := by rw [h]; decide
  simp only [makeApproachRoom, if_neg hfull, hv]

theorem makeClaimRoom_room {s : State} (h : s.grants.claims.length < 8) : makeClaimRoom s = s := if_pos h

theorem makeClaimRoom_full {s : State} {v : Claim} (h : s.grants.claims.length = 8)
    (hv : s.grants.claims[earliest (fun a b : Claim => Time.before a.window.stop b.window.stop) s.grants.claims]? = some v) :
    makeClaimRoom s = holdRequest (s.setClaims (s.grants.claims.eraseIdx
      (earliest (fun a b : Claim => Time.before a.window.stop b.window.stop) s.grants.claims))) v.lane v.window.stop := by
  have hfull : ¬s.grants.claims.length < Config.claimCap := by rw [h]; decide
  simp only [makeClaimRoom, if_neg hfull, hv]

theorem makeOccupancyRoom_full {s : State} {v : OccupancyEntry} (h : s.occ.list.length = 24)
    (hv : s.occ.list[occupancyVictim s.occ.list]? = some v) :
    (∀ t, v.stop = .at t → makeOccupancyRoom s =
      holdRequest (s.setOccupancy (s.occ.list.eraseIdx (occupancyVictim s.occ.list))) v.lane t) ∧
    (v.stop = .open → makeOccupancyRoom s = s.setOccupancy (s.occ.list.eraseIdx (occupancyVictim s.occ.list))) := by
  have hfull : ¬s.occ.list.length < Config.occupancyCap := by rw [h]; decide
  refine ⟨fun t hstop => ?_, fun hstop => ?_⟩
  · simp only [makeOccupancyRoom, if_neg hfull, hv, hstop]
  · simp only [makeOccupancyRoom, if_neg hfull, hv, hstop]

/-! ## The full transmit queue (R156) -/

/-- R155: no more TAKEN frames are queued than there are slots. -/
theorem taken_length_le {s : State} (htaken : takenKept s) (hdistinct : s.line.queue.Pairwise (fun a b => a.id ≠ b.id)) :
    (s.line.queue.filter TxFrame.isTaken).length ≤ 4 := by
  have hnodup : ((s.line.queue.filter TxFrame.isTaken).map TxFrame.id).Nodup :=
    List.pairwise_map.2 (hdistinct.sublist List.filter_sublist)
  have hsubset : (s.line.queue.filter TxFrame.isTaken).map TxFrame.id ⊆
      Lane.all.filterMap (fun l => (s.grants.slots.get l).bind Grant.frame) := by
    intro i hi
    obtain ⟨f, hf, rfl⟩ := List.mem_map.1 hi
    obtain ⟨hmem, hft⟩ := List.mem_filter.1 hf
    obtain ⟨l, g, hslot, _, hframe⟩ := htaken f hmem hft
    exact List.mem_filterMap.2 ⟨l, Lane.mem_all l, by rw [hslot]; exact hframe⟩
  calc (s.line.queue.filter TxFrame.isTaken).length
      = ((s.line.queue.filter TxFrame.isTaken).map TxFrame.id).length := (List.length_map _).symm
    _ ≤ (Lane.all.filterMap (fun l => (s.grants.slots.get l).bind Grant.frame)).length := (List.subperm_of_subset hnodup hsubset).length_le
    _ ≤ Lane.all.length := List.length_filterMap_le _ _
    _ = 4 := rfl

theorem isTaken_kind {f : TxFrame} (h : f.isTaken = true) : f.body.kind = .pass := by
  unfold TxFrame.isTaken at h
  split at h
  · next p hp => rw [hp]; rfl
  all_goals nomatch h

/-- R156: from a full queue of the invariants a frame is dropped. -/
theorem exists_dropped {s : State} (hline : lineKept s) (htaken : takenKept s) (hfull : s.line.queue.length = 8) :
    ∃ i v, dropped s.line.queue i v := by
  obtain ⟨_, _, _, _, _, _, hdistinct, _, hlevel⟩ := hline
  have hplace : (dropPlace s.line.queue).isSome = true := by
    unfold dropPlace
    split
    · next hzero =>
      have hzero := greatestLevel_eq_zero.1 hzero
      rw [List.findIdx?_isSome]
      by_contra hnone
      have hall : ∀ f ∈ s.line.queue, f.isTaken = true := by
        intro f hf
        have hpass := (hlevel f hf).1 (hzero f hf)
        by_contra hft
        exact hnone (List.any_eq_true.2 ⟨f, hf, by simp [hpass, Bool.eq_false_iff.2 hft]⟩)
      have hfew := taken_length_le htaken hdistinct
      rw [List.filter_eq_self.2 hall] at hfew
      omega
    · next hpos =>
      rw [List.findIdx?_isSome, List.any_eq_true]
      rcases (greatest_fold s.line.queue 0).2.2 with h | ⟨x, hx, h⟩
      · exact absurd h hpos
      · exact ⟨x, hx, decide_eq_true h.symm⟩
  obtain ⟨i, hi⟩ := Option.isSome_iff_exists.1 hplace
  exact ⟨i, (dropPlace_iff _ i).1 hi⟩

/-- R154, R156: in a queue in order the frame that is dropped is no TAKEN, and of its level the other such frames are younger. -/
theorem dropped_oldest {s : State} (hline : lineKept s) {i : Nat} {v : TxFrame} (h : dropped s.line.queue i v) :
    v.isTaken = false ∧
    ∀ x ∈ s.line.queue, x.level = v.level → x.isTaken = false → Time.diff x.queued s.now ≤ Time.diff v.queued s.now := by
  obtain ⟨_, _, _, _, hordered, _, _, _, hlevel⟩ := hline
  obtain ⟨hv, hurgent, hzero⟩ := h
  have hvmem := List.mem_of_getElem? hv
  have hbefore : v.isTaken = false ∧ ∀ x ∈ s.line.queue.take i, x.level = v.level → x.isTaken = true := by
    by_cases hsome : ∃ x ∈ s.line.queue, x.level ≠ 0
    · obtain ⟨hgreatest, hearliest⟩ := hurgent hsome
      refine ⟨?_, fun x hx hsame => absurd hsame (hearliest x hx)⟩
      rw [← Bool.not_eq_true]
      intro htaken
      obtain ⟨x, hx, hne⟩ := hsome
      have hle := hgreatest x hx
      rw [(hlevel v hvmem).2 (isTaken_kind htaken)] at hle
      exact hne (BitVec.eq_of_toNat_eq (Nat.le_zero.1 hle))
    · have hall : ∀ x ∈ s.line.queue, x.level = 0 := fun x hx => by_contra fun hne => hsome ⟨x, hx, hne⟩
      obtain ⟨_, htaken, hearliest⟩ := hzero hall
      refine ⟨htaken, fun x hx _ => ?_⟩
      have hmem := List.mem_of_mem_take hx
      by_contra hft
      exact hearliest x hx ⟨(hlevel x hmem).1 (hall x hmem), Bool.eq_false_iff.2 hft⟩
  refine ⟨hbefore.1, fun x hx hsame hfree => ?_⟩
  obtain ⟨j, hj, rfl⟩ := List.mem_iff_getElem.1 hx
  obtain ⟨hi, rfl⟩ := List.getElem?_eq_some_iff.1 hv
  rcases Nat.lt_trichotomy j i with hlt | rfl | hgt
  · have hmem : s.line.queue[j] ∈ s.line.queue.take i := List.mem_take_iff_getElem.2 ⟨j, by omega, rfl⟩
    rw [hbefore.2 _ hmem hsame] at hfree
    nomatch hfree
  · exact le_refl _
  · rcases List.pairwise_iff_getElem.1 hordered i j hi hj hgt with hless | ⟨_, hage, _⟩
    · rw [hsame] at hless
      omega
    · exact hage

/-- Settles O38: room, the one that ends first, and its lane. -/
theorem evictionHoldsTheLane : Obligations.EvictionHoldsTheLane := by
  unfold Obligations.EvictionHoldsTheLane
  intro near held
  have hheld : ∀ (s t : State) (l : Lane) (e : Time), t.now = s.now → t.working = s.working → t.occ.holds = s.occ.holds →
      ∀ u : State, u.occ.holds = (holdRequest t l e).occ.holds → held s u l e := by
    intro s t l e hnow hworking hholds u hu hahead hl
    obtain ⟨x, hget, hx⟩ := holdRequest_held (s := t) (l := l) (e := e) (by rw [hnow]; exact hahead) (by rw [hworking]; exact hl)
    rw [hholds] at hx
    exact ⟨x, by rw [hu]; exact hget, hx⟩
  refine ⟨fun s e hroom => ?_, fun s e hfull hnear => ?_, fun s r => ?_, fun s c => ?_,
    fun s level body deadline owner hnode hahead => ?_, fun s hline hblades hfull => ?_⟩
  · have hmake : makeOccupancyRoom s = s := if_pos hroom
    simp only [enterOccupancy, hmake]
    rfl
  · have hne : s.occ.list ≠ [] := by
      intro h
      rw [h] at hfull
      nomatch hfull
    obtain ⟨v, hv, hlast, hfirst⟩ := earliest_victim hne (isBefore := fun a b : OccupancyEntry => WindowEnd.before a.stop b.stop)
      (key := fun e => endKey s.now e.stop) (fun a ha b hb => endBefore_iff_key (hnear a ha) (hnear b hb))
    obtain ⟨hclosed, hopen⟩ := makeOccupancyRoom_full hfull hv
    have hlist : (makeOccupancyRoom s).occ.list = s.occ.list.eraseIdx (occupancyVictim s.occ.list) := by
      match hstop : v.stop with
      | .open => rw [hopen hstop]; rfl
      | .at t =>
        rw [hclosed t hstop]
        obtain ⟨_, h⟩ := holdRequest_frame (s.setOccupancy (s.occ.list.eraseIdx (occupancyVictim s.occ.list))) v.lane t
        rw [h]
        rfl
    refine ⟨occupancyVictim s.occ.list, v, hv, ?_, hlast, hfirst, fun t hstop => ?_⟩
    · show (makeOccupancyRoom s).occ.list ++ [e] = _
      rw [hlist]
    · refine hheld s (s.setOccupancy (s.occ.list.eraseIdx (occupancyVictim s.occ.list))) v.lane t rfl rfl rfl _ ?_
      rw [← hclosed t hstop]
      rfl
  · intro kept later
    have hkept : withoutCode r.code s.occ.approach = kept := withoutCode_eq _ _
    have hentered : (enterApproach s r).occ.approach =
        enterApproachRecord r (makeApproachRoom (s.setApproach kept)).occ.approach := by
      rw [← hkept]
      rfl
    refine ⟨fun hroom => ?_, fun hfull hnear => ?_⟩
    · have hmake : makeApproachRoom (s.setApproach kept) = s.setApproach kept := makeApproachRoom_room hroom
      refine ⟨?_, ?_⟩
      · rw [hentered, hmake]
        exact enterInOrder_entered (fun y => Iff.rfl) r kept
      · rw [hentered, enterApproach, hkept, hmake]
        rfl
    · have hne : kept ≠ [] := by
        intro h
        rw [h] at hfull
        nomatch hfull
      obtain ⟨v, hv, hlast, hfirst⟩ := earliest_victim hne
        (isBefore := fun a b : ApproachRecord => Time.before a.window.stop b.window.stop)
        (key := fun x => Time.diff s.now x.window.stop) (fun a ha b hb => before_iff_key (hnear a ha) (hnear b hb))
      obtain ⟨i, hi⟩ : ∃ i, i = earliest (fun a b : ApproachRecord => Time.before a.window.stop b.window.stop) kept := ⟨_, rfl⟩
      rw [← hi] at hv hfirst
      have hmake : makeApproachRoom (s.setApproach kept) =
          holdRequest ((s.setApproach kept).setApproach (kept.eraseIdx i)) v.lane v.window.stop := by
        rw [hi] at hv ⊢
        exact makeApproachRoom_full (s := s.setApproach kept) hfull hv
      obtain ⟨_, hframe⟩ := holdRequest_frame ((s.setApproach kept).setApproach (kept.eraseIdx i)) v.lane v.window.stop
      refine ⟨i, v, hv, ?_, hlast, hfirst, ?_⟩
      · rw [hentered, hmake, hframe]
        exact enterInOrder_entered (fun y => Iff.rfl) r (kept.eraseIdx i)
      · refine hheld s ((s.setApproach kept).setApproach (kept.eraseIdx i)) v.lane v.window.stop rfl rfl rfl _ ?_
        rw [← hmake, enterApproach, hkept]
        rfl
  · intro kept later
    have hkept : claimsWithout c.code s.grants.claims = kept := claimsWithout_eq _ _
    have hentered : (enterClaim s c).grants.claims = enterClaimIn c (makeClaimRoom (s.setClaims kept)).grants.claims := by
      rw [← hkept]
      rfl
    refine ⟨fun hroom => ?_, fun hfull hnear => ?_⟩
    · have hmake : makeClaimRoom (s.setClaims kept) = s.setClaims kept := makeClaimRoom_room hroom
      refine ⟨?_, ?_⟩
      · rw [hentered, hmake]
        exact enterInOrder_entered (fun y => Iff.rfl) c kept
      · rw [hentered, enterClaim, hkept, hmake]
        rfl
    · have hne : kept ≠ [] := by
        intro h
        rw [h] at hfull
        nomatch hfull
      obtain ⟨v, hv, hlast, hfirst⟩ := earliest_victim hne
        (isBefore := fun a b : Claim => Time.before a.window.stop b.window.stop)
        (key := fun x => Time.diff s.now x.window.stop) (fun a ha b hb => before_iff_key (hnear a ha) (hnear b hb))
      obtain ⟨i, hi⟩ : ∃ i, i = earliest (fun a b : Claim => Time.before a.window.stop b.window.stop) kept := ⟨_, rfl⟩
      rw [← hi] at hv hfirst
      have hmake : makeClaimRoom (s.setClaims kept) =
          holdRequest ((s.setClaims kept).setClaims (kept.eraseIdx i)) v.lane v.window.stop := by
        rw [hi] at hv ⊢
        exact makeClaimRoom_full (s := s.setClaims kept) hfull hv
      obtain ⟨_, hframe⟩ := holdRequest_frame ((s.setClaims kept).setClaims (kept.eraseIdx i)) v.lane v.window.stop
      refine ⟨i, v, hv, ?_, hlast, hfirst, ?_⟩
      · rw [hentered, hmake, hframe]
        exact enterInOrder_entered (fun y => Iff.rfl) c (kept.eraseIdx i)
      · refine hheld s ((s.setClaims kept).setClaims (kept.eraseIdx i)) v.lane v.window.stop rfl rfl rfl _ ?_
        rw [← hmake, enterClaim, hkept]
        rfl
  · have haccepts : acceptsFrame s.node body = true := by
      rcases hnode with h | h | ⟨h, hkind⟩
      · rw [h]; rfl
      · rw [h]; rfl
      · rw [h]; exact decide_eq_true hkind
    exact ⟨queueAfter_queuedIn s.node s.now (newFrame s level body deadline owner) s.line.queue haccepts hahead, rfl⟩
  · obtain ⟨_, _, htaken⟩ := hblades
    obtain ⟨i, v, hdropped⟩ := exists_dropped hline htaken hfull
    obtain ⟨hfree, holdest⟩ := dropped_oldest hline hdropped
    exact ⟨i, v, hdropped, hfree, holdest⟩

end Sys2Proof.Machine
end


/-! # The close of a passage (R24, R25, R29, R78, R88, R94) -/

section
namespace Sys2Proof.Machine

open Sys2Proof.Safety

/-! ## What a decision leaves of the occupancy list -/

theorem enterOccupancy_room {s : State} (h : s.occ.list.length < 24) (e : OccupancyEntry) :
    enterOccupancy s e = s.setOccupancy (s.occ.list ++ [e]) := by
  have hmake : makeOccupancyRoom s = s := if_pos h
  simp only [enterOccupancy, hmake]

/-- An entry of no grant stands through from `s` to `t`, and no entry is added. -/
def unlinkedStands (s t : State) : Prop :=
  t.occ.list.length ≤ s.occ.list.length ∧ ∀ e ∈ s.occ.list, e.link = none → e ∈ t.occ.list

theorem unlinkedStands_endGrant (s : State) (l : Lane) (g : Grant) (o : Outcome) : unlinkedStands s (endGrant s l g o) := by
  obtain ⟨_, _, _, h⟩ := endGrant_frame s l g o
  rw [h]
  refine ⟨List.length_filter_le _ _, fun e he hlink => List.mem_filter.2 ⟨he, ?_⟩⟩
  simp [linkedTo, hlink]

theorem unlinkedStands_withdraw (s : State) (l : Lane) (o : Outcome) : unlinkedStands s (withdraw s l o) := by
  unfold withdraw
  split
  · next g _ =>
    split
    · have hocc : (removeTaken s g).occ = s.occ := by
        unfold removeTaken
        split
        · next id _ =>
          obtain ⟨_, _, _, h⟩ := removeFrame_frame s id
          rw [h]
        · rfl
      have h := unlinkedStands_endGrant (removeTaken s g) l g o
      unfold unlinkedStands at h ⊢
      rw [hocc] at h
      exact h
    · exact ⟨Nat.le_refl _, fun _ he _ => he⟩
  · exact ⟨Nat.le_refl _, fun _ he _ => he⟩

theorem unlinkedStands_abort (s : State) (l : Lane) : unlinkedStands s (abort s l) := by
  unfold abort
  split
  · next g _ =>
    split
    · obtain ⟨_, hdown⟩ := standDownBlade_frame s l
      have h := unlinkedStands_endGrant (standDownBlade s l) l g .aborted
      rw [hdown] at h ⊢
      exact h
    · exact ⟨Nat.le_refl _, fun _ he _ => he⟩
  · exact ⟨Nat.le_refl _, fun _ he _ => he⟩

theorem unlinkedStands_ladder (s : State) (c : Candidate) : unlinkedStands s (ladder s c).1 :=
  ladder_keeps (P := unlinkedStands s) ⟨Nat.le_refl _, fun _ he _ => he⟩ (unlinkedStands_abort s _) (unlinkedStands_withdraw s _ _)

theorem settleOrder_frame (s : State) (c : Candidate) (o : Outcome) :
    ∃ e, settleOrder s c o = { s with bind := { s.bind with entries := e } } := by
  unfold settleOrder
  split
  · split
    · exact ⟨_, rfl⟩
    · exact ⟨_, rfl⟩
  · exact ⟨_, rfl⟩

theorem settleNotice_occ (s : State) (c : Candidate) (d : Decided) : (settleNotice s c d).occ = s.occ := by
  unfold settleNotice
  split <;> rfl

/-- R83, R115: with room in the list a settled decision evicts nothing. -/
theorem settle_list {s : State} {c : Candidate} {d : Decided} {e : OccupancyEntry} (he : e ∈ s.occ.list)
    (hroom : s.occ.list.length < 24) : e ∈ (settle s c d).occ.list := by
  obtain ⟨hs, hrequest⟩ := settleRequest_frame s c d.outcome
  obtain ⟨es, horder⟩ := settleOrder_frame (settleRequest s c d.outcome) c d.outcome
  rw [hrequest] at horder
  have hentered : ∀ x, e ∈ (enterOccupancy (settleOrder (settleRequest s c d.outcome) c d.outcome) x).occ.list := by
    intro x
    rw [enterOccupancy_room (by rw [hrequest, horder]; exact hroom), hrequest, horder]
    exact List.mem_append_left _ he
  rw [settle, settleNotice_occ]
  unfold settleTarget
  split
  iterate 3 exact hentered _
  all_goals
    rw [hrequest, horder]
    exact he

theorem decideRecord_list {s : State} {r : PassageRecord} {e : OccupancyEntry} (he : e ∈ s.occ.list) (hlink : e.link = none)
    (hroom : s.occ.list.length < 24) : e ∈ (decideRecord s r).occ.list := by
  obtain ⟨hlength, hstands⟩ := unlinkedStands_ladder s (candidate s r)
  exact settle_list (hstands e he hlink) (Nat.lt_of_le_of_lt hlength hroom)

/-! ## A record of no car (R94, R97, R103) -/

theorem check3_of_absent {s : State} {c : Candidate} (h : (s.blades.get c.record.lane).state = .absent) : check3 s c = .goOn s false := by
  have hclear : bladeMet s c = .clear := by
    simp only [bladeMet, h]
    split <;> rfl
  simp only [check3, hclear]

/-- R97, R103: a record whose code was not read, in a lane without a blade. -/
theorem ladder_unread {s : State} {r : PassageRecord} (hkind : r.kind = .normal) (hcode : r.code = 0)
    (hblade : (s.blades.get r.lane).state = .absent) : ladder s (candidate s r) =
      (s, { outcome := if s.node = .sync then .notReady else .straight, laneOut := r.lane }) := by
  have hstalled : (candidate s r).record.kind ≠ .stalled := by
    show r.kind ≠ .stalled
    rw [hkind]
    nofun
  have hlater : laterChecks s (candidate s r) false = { outcome := .straight, laneOut := r.lane } := by
    have hhandset : (candidate s r).handset = none := by
      show boundHandset s r.code = none
      rw [hcode]
      rfl
    simp only [laterChecks, hhandset]
    rfl
  unfold ladder
  by_cases hsync : s.node = .sync
  · simp only [if_pos hsync]
    rfl
  · simp only [if_neg hsync, if_neg hstalled, check3_of_absent (c := candidate s r) hblade, hlater]

/-! ## The close -/

theorem exec_passageClose_due {l : Lane} {s : State} {p : Passage} (hopen : (s.gates.get l).state = .open p)
    (hgap : 24 ≤ (s.gates.get l).gap) : exec (.passageClose l) s = .next
      (if (Time.diff p.first p.last).toNat < 8 then s.setGate l { s.gates.get l with state := .idle, decoder := .hunt }
       else handOver (s.setGate l { s.gates.get l with state := .idle, decoder := .hunt }) (normalRecord s.working s.now l p)) := by
  show Host.Outcome.next (passageClose l s) = _
  simp only [passageClose, hopen]
  exact congrArg _ (if_pos hgap)

theorem handOver_list {s : State} {r : PassageRecord} (hnode : s.node = .sync ∨ s.node = .run ∨ s.node = .fault)
    (hroom : s.occ.list.length < 23) (hlink : (recordEntry s.working r).link = none) :
    recordEntry s.working r ∈ (handOver s r).occ.list := by
  obtain ⟨hmem, _⟩ := takeRecord_spec s r
  have hlength : (takeRecord s r).occ.list.length < 24 := by
    have hentered : takeRecord s r = ((matchArrival s r).setOccupancy (s.occ.list ++ [recordEntry s.working r])).setLastClose r.lane
        (some r.handover) := by
      rw [takeRecord, enterOccupancy_room (s := matchArrival s r) (Nat.lt_succ_of_lt hroom)]
      rfl
    rw [hentered]
    show (s.occ.list ++ [recordEntry s.working r]).length < 24
    rw [List.length_append, List.length_singleton]
    omega
  rw [handOver_eq hnode]
  split
  · exact hmem
  · exact decideRecord_list hmem hlink hlength

/-- R9, R25, R78: the entry of a passage that closes. -/
theorem recordEntry_normalRecord (g : Working) (now : Time) (l : Lane) (p : Passage) : recordEntry g (normalRecord g now l p) =
    { code := p.code.reported
      lane := l
      kind := .passage
      tRef := p.last
      pace := Pace.ofDwell g.w (Time.diff p.first p.last).toNat
      start := (zoneWindow g p.last (Pace.ofDwell g.w (Time.diff p.first p.last).toNat).ticks).start
      stop := .at (zoneWindow g p.last (Pace.ofDwell g.w (Time.diff p.first p.last).toNat).ticks).stop
      link := none } := rfl

/-- Settles O19: the discard, the record handed on, and the record that is only reported. -/
theorem passageCloseMakesItsRecord : Obligations.PassageCloseMakesItsRecord := by
  refine ⟨fun l s p hopen hgap hshort => ?_, fun l s p hopen hgap hlong hnode hroom => ?_,
    fun l s p hopen hgap hlong hcode hnode hblade hroom hahead => ?_⟩
  · rw [exec_passageClose_due hopen hgap, if_pos (by omega)]
  · have hclose := exec_passageClose_due hopen hgap
    rw [if_neg (by omega)] at hclose
    obtain ⟨u, hu⟩ : ∃ u, u = s.setGate l { s.gates.get l with state := .idle, decoder := .hunt } := ⟨_, rfl⟩
    obtain ⟨r, hr⟩ : ∃ r, r = normalRecord s.working s.now l p := ⟨_, rfl⟩
    rw [← hu, ← hr] at hclose
    have hunode : u.node = .sync ∨ u.node = .run ∨ u.node = .fault := by rw [hu]; exact hnode
    have hentry : recordEntry u.working r = recordEntry s.working (normalRecord s.working s.now l p) := by
      rw [hu, hr]
      rfl
    have hmem := handOver_list hunode (by rw [hu]; exact hroom) (by rw [hentry, recordEntry_normalRecord])
    rw [hentry, recordEntry_normalRecord] at hmem
    obtain ⟨_, hlast⟩ := takeRecord_spec u r
    have hlists : (handOver u r).occ.lastClose = (takeRecord u r).occ.lastClose ∧
        (handOver u r).occ.approach = matchedApproach u.working r u.occ.approach ∧ (handOver u r).gates = u.gates := by
      obtain ⟨_, _, _, htaken⟩ := takeRecord_frame u r
      obtain ⟨_, _, _, _, _, _, _, _, _, hdecided⟩ := decideRecord_frame (takeRecord u r) r
      rw [handOver_eq hunode]
      split
      · rw [htaken]
        exact ⟨rfl, rfl, rfl⟩
      · rw [hdecided, htaken]
        exact ⟨rfl, rfl, rfl⟩
    obtain ⟨hclosed, happroach, hgates⟩ := hlists
    refine ⟨_, hclose, ?_, ?_, ⟨_, hmem, rfl, rfl, rfl, rfl, rfl, rfl, rfl⟩, fun hcode => ?_, ?_⟩
    · rw [hgates, hu]
      rfl
    · rw [hclosed, hlast, hu, hr]
      rfl
    · have hread : r.code ≠ 0 := by rw [hr]; exact hcode
      rw [happroach, matchedApproach, if_pos hread, hu, hr]
      rfl
    · obtain ⟨_, _, _, _, _, _, _, _, _, _, _, hframe⟩ := handOver_frame u r
      rw [hframe, hu]
      rfl
  · intro pace w notice
    obtain ⟨r, hr⟩ : ∃ r, r = normalRecord s.working s.now l p := ⟨_, rfl⟩
    have hunread : r.code = 0 := by
      rw [hr]
      rcases hcode with h | h
      · show p.code.reported = 0
        rw [h]
        rfl
      · show p.code.reported = 0
        rw [h]
        rfl
    obtain ⟨u, hu⟩ : ∃ u : State, u = { s with
        gates := s.gates.set l { s.gates.get l with state := .idle, decoder := .hunt }
        occ := { s.occ with
          list := s.occ.list ++ [recordEntry s.working r]
          lastClose := s.occ.lastClose.set l (some s.now)
          approach := matchedApproach s.working r s.occ.approach } } := ⟨_, rfl⟩
    have htaken : takeRecord (s.setGate l { s.gates.get l with state := .idle, decoder := .hunt }) r = u := by
      rw [takeRecord, enterOccupancy_room (s := matchArrival (s.setGate l { s.gates.get l with state := .idle, decoder := .hunt }) r)
        hroom, hu, hr]
      rfl
    obtain ⟨d, hd⟩ : ∃ d : Decided, d = { outcome := if s.node = .sync then .notReady else .straight, laneOut := l } := ⟨_, rfl⟩
    have hquiet : d.outcome.consumes = false := by
      rw [hd]
      rcases hnode with h | h <;> rw [h] <;> rfl
    have hladder : ladder u (candidate u r) = (u, d) := by
      have hblade' : (u.blades.get r.lane).state = .absent := by
        rw [hu, hr]
        exact hblade
      rw [ladder_unread (by rw [hr]; rfl) hunread hblade', hd, hu, hr]
      rfl
    have hnotice : decisionNotice u (candidate u r) d = notice := by
      have hcode : (candidate u r).record.code = 0 := hunread
      simp only [decisionNotice, consumed_none hquiet, hcode]
      rw [hd, hu, hr]
      rfl
    have hclose := exec_passageClose_due hopen hgap
    have hlive : s.node = .sync ∨ s.node = .run ∨ s.node = .fault := by tauto
    have hfault : s.node ≠ .fault := by rcases hnode with h | h <;> rw [h] <;> nofun
    have hreported : handOver (s.setGate l { s.gates.get l with state := .idle, decoder := .hunt }) r =
        queuePass u notice (Time.plus p.last 3125) .planner := by
      refine (handOver_eq (s := s.setGate l { s.gates.get l with state := .idle, decoder := .hunt }) hlive r).trans
        ((if_neg hfault).trans ?_)
      have hlast : (candidate u r).record.tRef = p.last := by
        rw [hr]
        rfl
      rw [htaken]
      simp only [decideRecord, hladder]
      rw [settle_quiet u (candidate u r) hquiet, hnotice, hlast]
      rfl
    rw [if_neg (by omega), ← hr, hreported] at hclose
    have hqueued := queuePass_queuedIn (s := u) (by rw [hu]; exact (live_iff _).2 hnode) notice
      (deadline := Time.plus p.last 3125) .planner (by rw [hu]; exact hahead)
    rw [hu] at hqueued
    refine ⟨_, hqueued, ?_⟩
    have hmatched : matchedApproach s.working r s.occ.approach = s.occ.approach.eraseP (fun a => decide (a.code = 0) &&
        decide (a.lane = l) && Time.atOrBefore a.arrival w.stop) := by
      have hzero : ¬r.code ≠ 0 := by rw [hunread]; nofun
      rw [matchedApproach, if_neg hzero, hr]
      rfl
    have hentry : recordEntry s.working r = { code := 0, lane := l, kind := .passage, tRef := p.last, pace := pace, start := w.start,
                                              stop := .at w.stop, link := none } := by
      rw [hr] at hunread ⊢
      rw [recordEntry_normalRecord]
      simp only [show p.code.reported = 0 from hunread]
      rfl
    rw [hclose, ← hmatched, ← hentry, hr, hu, hr]
    rfl

end Sys2Proof.Machine
end


/-! # The read of LOAD (R68, R134, R161, R163, R164, R177) -/

section
namespace Sys2Proof.Machine

open Sys2Proof.Safety

/-! ## The fields of a block (R163, R177) -/

/-- R177: `width` bits of a block's fields from place `low` on, as a number. -/
def fieldAt (f : BitVec 120) (low width : Nat) : Nat := f.toNat / 2 ^ low % 2 ^ width

theorem fieldAt_lt (f : BitVec 120) (low width : Nat) : fieldAt f low width < 2 ^ width := Nat.mod_lt _ (Nat.two_pow_pos _)

theorem toNat_extract (f : BitVec 120) (low width : Nat) : (f.extractLsb' low width).toNat = fieldAt f low width := by
  rw [BitVec.extractLsb'_toNat, Nat.shiftRight_eq_div_pow]
  rfl

/-- R163 test 2: the check byte over the 15 field bytes in order. -/
theorem checkByte_eq (f : BitVec 120) : checkByte f =
    ~~~(((List.range 15).map (fun i => BitVec.ofNat 8 (fieldAt f (8 * i) 8))).foldl (fun y z => y ^^^ z) 0) := by
  have hbyte : ∀ i, BitVec.ofNat 8 (fieldAt f (8 * i) 8) = f.extractLsb' (8 * i) 8 := by
    intro i
    rw [← toNat_extract, BitVec.ofNat_toNat, BitVec.setWidth_eq]
  simp only [hbyte]
  rfl

/-- R163 tests 3 to 7, read as propositions. -/
theorem RawBlock.ok_iff (b : RawBlock) : b.ok = true ↔
    (b.address ≠ 0 ∧ b.address ≠ 63) ∧ (b.upstream ≠ 63 ∧ b.upstream ≠ b.address) ∧ (b.downstream ≠ 63 ∧ b.downstream ≠ b.address) ∧
    (2 ≤ b.lanes ∧ b.lanes ≤ 4) ∧ (∀ l, sideOk b l = true) ∧ (8 ≤ b.w ∧ b.w ≤ 63) ∧ (40 ≤ b.ds ∧ b.ds ≤ 1023) ∧
    (40 ≤ b.dm ∧ b.dm ≤ 1023) ∧ b.lc ≤ 255 ∧ (b.gu = 0 ∨ (200 ≤ b.gu ∧ b.gu ≤ 8191)) ∧ (b.gd = 0 ∨ (200 ≤ b.gd ∧ b.gd ≤ 8191)) ∧
    b.guard ≤ 255 ∧ (16 ≤ b.lead ∧ b.lead ≤ 255) ∧ (2 ≤ b.requestHold ∧ b.requestHold ≤ 32) ∧
    (1 ≤ b.blindHold ∧ b.blindHold ≤ 16) := by
  have hlanes : Lane.all.all (sideOk b) = true ↔ ∀ l, sideOk b l = true := by
    simp only [List.all_eq_true]
    exact ⟨fun h l => h l (Lane.mem_all l), fun h l _ => h l⟩
  simp only [RawBlock.ok, Bool.and_eq_true, Bool.or_eq_true, decide_eq_true_eq, hlanes, neighbourOk, inRange, Nat.zero_le, true_and,
    and_assoc]
  rfl

theorem sideOk_iff (b : RawBlock) (l : Lane) : sideOk b l = true ↔ (l.num ≤ b.lanes →
    b.sides.get l ≠ 3 ∧ (l.num = 1 → b.sides.get l ≠ 1) ∧ (l.num = b.lanes → b.sides.get l ≠ 2)) := by
  simp only [sideOk, Bool.or_eq_true, Bool.and_eq_true, decide_eq_true_eq, Bool.not_eq_true', Bool.and_eq_false_imp,
    decide_eq_false_iff_not, and_assoc, ← Nat.not_le, ← imp_iff_not_or]

theorem sides_get (f : BitVec 120) (l : Lane) : (readFields f).sides.get l = f.extractLsb' (99 - 2 * l.num) 2 := by
  cases l <;> rfl

theorem exists_lane {n : Nat} (hlow : 1 ≤ n) (hhigh : n ≤ 4) : ∃ l : Lane, l.num = n := by
  have : n = 1 ∨ n = 2 ∨ n = 3 ∨ n = 4 := by omega
  rcases this with rfl | rfl | rfl | rfl
  exacts [⟨.l1, rfl⟩, ⟨.l2, rfl⟩, ⟨.l3, rfl⟩, ⟨.l4, rfl⟩]

theorem extract_eq_iff (f : BitVec 120) (low width n : Nat) (hn : n < 2 ^ width) :
    f.extractLsb' low width = BitVec.ofNat width n ↔ fieldAt f low width = n := by
  rw [← BitVec.toNat_inj, toNat_extract, BitVec.toNat_ofNat, Nat.mod_eq_of_lt hn]

/-- R163 test 6: the sides of lanes 1 to N. -/
theorem sidesOk_iff {f : BitVec 120} (hN : fieldAt f 99 3 ≤ 4) : (∀ l, sideOk (readFields f) l = true) ↔
    ∀ n, 1 ≤ n → n ≤ fieldAt f 99 3 → fieldAt f (99 - 2 * n) 2 ≠ 3 ∧ (n = 1 → fieldAt f (99 - 2 * n) 2 ≠ 1) ∧
      (n = fieldAt f 99 3 → fieldAt f (99 - 2 * n) 2 ≠ 2) := by
  have hlane : ∀ l : Lane, sideOk (readFields f) l = true ↔ (l.num ≤ fieldAt f 99 3 →
      fieldAt f (99 - 2 * l.num) 2 ≠ 3 ∧ (l.num = 1 → fieldAt f (99 - 2 * l.num) 2 ≠ 1) ∧
        (l.num = fieldAt f 99 3 → fieldAt f (99 - 2 * l.num) 2 ≠ 2)) := by
    intro l
    have hlanes : (readFields f).lanes = fieldAt f 99 3 := toNat_extract f 99 3
    have hside : ∀ n, n < 4 → ((readFields f).sides.get l ≠ BitVec.ofNat 2 n ↔ fieldAt f (99 - 2 * l.num) 2 ≠ n) := by
      intro n hn
      rw [sides_get]
      exact not_congr (extract_eq_iff f _ 2 n hn)
    have h1 := hside 1 (by decide)
    have h2 := hside 2 (by decide)
    have h3 := hside 3 (by decide)
    rw [sideOk_iff, hlanes]
    exact imp_congr_right fun _ => and_congr h3 (and_congr (imp_congr_right fun _ => h1) (imp_congr_right fun _ => h2))
  simp only [hlane]
  refine ⟨fun h n hlow hhigh => ?_, fun h l hl => h l.num ?_ hl⟩
  · obtain ⟨l, rfl⟩ := exists_lane hlow (hhigh.trans hN)
    exact h l hhigh
  · cases l <;> decide

/-- R163 tests 3 to 7 on the fields at their places. -/
theorem readFields_ok_iff (f : BitVec 120) : (readFields f).ok = true ↔
    (1 ≤ fieldAt f 114 6 ∧ fieldAt f 114 6 ≤ 62) ∧ (fieldAt f 108 6 ≤ 62 ∧ fieldAt f 108 6 ≠ fieldAt f 114 6) ∧
    (fieldAt f 102 6 ≤ 62 ∧ fieldAt f 102 6 ≠ fieldAt f 114 6) ∧ (2 ≤ fieldAt f 99 3 ∧ fieldAt f 99 3 ≤ 4) ∧
    (∀ n, 1 ≤ n → n ≤ fieldAt f 99 3 → fieldAt f (99 - 2 * n) 2 ≠ 3 ∧ (n = 1 → fieldAt f (99 - 2 * n) 2 ≠ 1) ∧
      (n = fieldAt f 99 3 → fieldAt f (99 - 2 * n) 2 ≠ 2)) ∧
    (8 ≤ fieldAt f 85 6 ∧ fieldAt f 85 6 ≤ 63) ∧ (40 ≤ fieldAt f 75 10 ∧ fieldAt f 75 10 ≤ 1023) ∧
    (40 ≤ fieldAt f 65 10 ∧ fieldAt f 65 10 ≤ 1023) ∧ (fieldAt f 44 13 = 0 ∨ 200 ≤ fieldAt f 44 13) ∧
    (fieldAt f 31 13 = 0 ∨ 200 ≤ fieldAt f 31 13) ∧ 16 ≤ fieldAt f 15 8 ∧ (2 ≤ fieldAt f 9 6 ∧ fieldAt f 9 6 ≤ 32) ∧
    (1 ≤ fieldAt f 4 5 ∧ fieldAt f 4 5 ≤ 16) := by
  have haddress : (f.extractLsb' 114 6 ≠ 0 ∧ f.extractLsb' 114 6 ≠ 63) ↔ 1 ≤ fieldAt f 114 6 ∧ fieldAt f 114 6 ≤ 62 := by
    have hlt := fieldAt_lt f 114 6
    have hzero : f.extractLsb' 114 6 = 0 ↔ fieldAt f 114 6 = 0 := extract_eq_iff f 114 6 0 (by decide)
    have htool : f.extractLsb' 114 6 = 63 ↔ fieldAt f 114 6 = 63 := extract_eq_iff f 114 6 63 (by decide)
    rw [ne_eq, ne_eq, hzero, htool]
    omega
  have hneighbour : ∀ low, (f.extractLsb' low 6 ≠ 63 ∧ f.extractLsb' low 6 ≠ f.extractLsb' 114 6) ↔
      fieldAt f low 6 ≤ 62 ∧ fieldAt f low 6 ≠ fieldAt f 114 6 := by
    intro low
    have hlt := fieldAt_lt f low 6
    have htool : f.extractLsb' low 6 = 63 ↔ fieldAt f low 6 = 63 := extract_eq_iff f low 6 63 (by decide)
    have hown : f.extractLsb' low 6 = f.extractLsb' 114 6 ↔ fieldAt f low 6 = fieldAt f 114 6 := by
      rw [← BitVec.toNat_inj, toNat_extract, toNat_extract]
    rw [ne_eq, ne_eq, htool, hown]
    omega
  have hgap : ∀ low, (fieldAt f low 13 = 0 ∨ (200 ≤ fieldAt f low 13 ∧ fieldAt f low 13 ≤ 8191)) ↔
      (fieldAt f low 13 = 0 ∨ 200 ≤ fieldAt f low 13) := by
    intro low
    have hlt := fieldAt_lt f low 13
    omega
  have hcar : fieldAt f 57 8 ≤ 255 := Nat.le_of_lt_succ (fieldAt_lt f 57 8)
  have hguard : fieldAt f 23 8 ≤ 255 := Nat.le_of_lt_succ (fieldAt_lt f 23 8)
  have hlead : fieldAt f 15 8 ≤ 255 := Nat.le_of_lt_succ (fieldAt_lt f 15 8)
  rw [RawBlock.ok_iff]
  simp only [readFields, toNat_extract, haddress, hneighbour, hgap, hcar, hguard, hlead, and_true, true_and]
  refine and_congr_right fun _ => and_congr_right fun _ => and_congr_right fun _ => and_congr_right fun hN => and_congr_left fun _ => ?_
  have hsides := sidesOk_iff hN.2
  simp only [readFields, toNat_extract] at hsides
  exact hsides

theorem Block.valid_iff (b : Block) (mark : Byte) : b.valid mark = true ↔
    mark = 0 ∧ b.check = checkByte b.fields ∧ (readFields b.fields).ok = true := by
  simp only [Block.valid, Block.checkOk, Bool.and_eq_true, decide_eq_true_eq, and_assoc]

/-- R164: a blade side of two bits. -/
theorem sideOfBits_extract (f : BitVec 120) (low : Nat) : sideOfBits (f.extractLsb' low 2) =
    if fieldAt f low 2 = 1 then some .left else if fieldAt f low 2 = 2 then some .right else none := by
  have hleft : f.extractLsb' low 2 = 1 ↔ fieldAt f low 2 = 1 := extract_eq_iff f low 2 1 (by decide)
  have hright : f.extractLsb' low 2 = 2 ↔ fieldAt f low 2 = 2 := extract_eq_iff f low 2 2 (by decide)
  exact if_congr hleft rfl (if_congr hright rfl rfl)

/-! ## The end of the read -/

theorem exec_loadReadComplete_due {s : State} {t : Time} (hload : s.sup.load = .reading t) (hnode : s.node = .load)
    (hdue : arrived s.now (Time.plus t 469) = true) (strap : Bool) : exec (.loadReadComplete strap) s = .next (finishRead strap s) := by
  show Host.Outcome.next (loadReadComplete strap s) = _
  simp only [loadReadComplete, hload]
  exact congrArg _ (if_pos ⟨hnode, hdue⟩)

theorem finishRead_invalid {s : State} (hvalid : s.nv.block.valid s.nv.writeMark = false) (strap : Bool) :
    finishRead strap s = leaveLoad (judged (readDone s) false) strap false := by
  simp only [finishRead, hvalid]
  rfl

theorem finishRead_valid {s : State} (hvalid : s.nv.block.valid s.nv.writeMark = true) (strap : Bool) :
    (∀ l, nextTested (readFields s.nv.block.fields).working 0 = some l →
      finishRead strap s = startPulse (judged (readDone s) true) l) ∧
    (nextTested (readFields s.nv.block.fields).working 0 = none →
      finishRead strap s = leaveLoad (judged (readDone s) true) strap true) := by
  have hworking : (judged (readDone s) true).working = (readFields s.nv.block.fields).working := rfl
  refine ⟨fun l hnext => ?_, fun hnext => ?_⟩
  · rw [← hworking] at hnext
    simp only [finishRead, hvalid, if_true, hnext]
  · rw [← hworking] at hnext
    simp only [finishRead, hvalid, if_true, hnext]

/-- Settles O58: the read's end, and the tests of a block. -/
theorem loadReadJudgesTheBlock : Obligations.LoadReadJudgesTheBlock := by
  unfold Obligations.LoadReadJudgesTheBlock
  intro read
  refine ⟨fun s t strap hload hnode hdue hvalid => ?_, fun s t strap l hload hnode hdue hvalid hnext => ?_,
    fun s t strap hload hnode hdue hvalid hhandsets hnext => ?_, fun b mark => ?_⟩
  · refine ⟨_, exec_loadReadComplete_due hload hnode hdue strap, ?_⟩
    rw [finishRead_invalid hvalid, leaveLoad_setup (Bool.or_true _)]
    exact ⟨⟨rfl, rfl, rfl, rfl, rfl, rfl, rfl, rfl⟩, rfl, rfl, rfl, rfl, rfl⟩
  · refine ⟨_, exec_loadReadComplete_due hload hnode hdue strap, ?_⟩
    rw [(finishRead_valid hvalid strap).1 l hnext]
    exact ⟨⟨rfl, rfl, rfl, rfl, rfl, rfl, rfl, rfl⟩, hnode, rfl, rfl, rfl, rfl⟩
  · refine ⟨_, exec_loadReadComplete_due hload hnode hdue strap, ?_⟩
    rw [(finishRead_valid hvalid strap).2 hnext]
    cases strap with
    | true =>
      rw [leaveLoad_setup rfl]
      exact ⟨⟨rfl, rfl, rfl, rfl, rfl, rfl, rfl, rfl⟩, rfl, rfl, rfl, rfl⟩
    | false =>
      rw [leaveLoad_sync, enterSync_eq]
      refine ⟨⟨rfl, rfl, rfl, rfl, rfl, rfl, ?_, rfl⟩, rfl, rfl, rfl, rfl⟩
      show (s.handsets.filter _).map _ = s.handsets
      rw [hhandsets]
      rfl
  · intro x side
    refine ⟨?_, ?_⟩
    · rw [Block.valid_iff, readFields_ok_iff, checkByte_eq]
      rfl
    · intro w
      refine ⟨toNat_extract _ _ _, toNat_extract _ _ _, toNat_extract _ _ _, toNat_extract _ _ _, fun l => ?_, toNat_extract _ _ _,
        toNat_extract _ _ _, toNat_extract _ _ _, toNat_extract _ _ _, toNat_extract _ _ _, toNat_extract _ _ _, toNat_extract _ _ _,
        toNat_extract _ _ _, toNat_extract _ _ _, toNat_extract _ _ _⟩
      refine (PerLane.get_map _ _ l).trans ?_
      rw [sides_get]
      exact sideOfBits_extract b.fields _

end Sys2Proof.Machine
end


/-! # The ladder of a decision (R94 to R114) -/

section
namespace Sys2Proof.Machine

open Sys2Proof.Safety

/-! ## The request (R96) -/

/-- R96: a car that requests is bound. -/
theorem boundHandset_of_request {s : State} {code : CarCode} {q : CarRequest} (h : requestOf s code = some q) :
    ∃ x, boundHandset s code = some x := by
  unfold requestOf at h
  unfold boundHandset
  cases hcar : Car.ofCode code with
  | none => rw [hcar] at h; nomatch h
  | some car =>
    rw [hcar] at h
    cases hhandset : (s.bind.entries.get car).handset with
    | none => simp only [hhandset] at h; nomatch h
    | some x => exact ⟨x, hhandset⟩

theorem asks_of_request {s : State} {code : CarCode} {q : CarRequest} (h : requestOf s code = some q) : ∃ x, asks s code x q := by
  obtain ⟨x, hx⟩ := boundHandset_of_request h
  exact ⟨x, (asks_iff s code x q).2 ⟨hx, h⟩⟩

theorem requests_iff (s : State) (r : PassageRecord) (d : Dir) :
    (candidate s r).requests d = true ↔ ∃ h q, asks s r.code h q ∧ q.dir = d := by
  have hrequests : (candidate s r).requests d = true ↔ ∃ q, requestOf s r.code = some q ∧ q.dir = d := by
    show (match requestOf s r.code with | some q => decide (q.dir = d) | none => false) = true ↔ _
    cases requestOf s r.code <;> simp
  rw [hrequests]
  constructor
  · rintro ⟨q, hq, hd⟩
    obtain ⟨h, hasks⟩ := asks_of_request hq
    exact ⟨h, q, hasks, hd⟩
  · rintro ⟨h, q, hasks, hd⟩
    exact ⟨q, ((asks_iff s r.code h q).1 hasks).2, hd⟩

/-! ## Checks 4 to 16 (R103 to R114) -/

/-- The first of a list of checks answers, or the rest of the list does. -/
theorem firstAnswer_ite {b p : Prop} [Decidable b] {x a : Outcome} {rest : List (Prop × Outcome)} (h : b ↔ p)
    (hrest : firstAnswer rest a) : firstAnswer ((p, x) :: rest) (if b then x else a) :=
  ⟨fun hp => if_pos (h.2 hp), fun hp => by rw [if_neg fun hb => hp (h.1 hb)]; exact hrest⟩

/-- Where a list of refusals ends in TAKEN, none of them has answered. -/
theorem not_of_firstAnswer_taken {l : List (Prop × Outcome)} (hrefusals : ∀ x ∈ l, x.2 ≠ .taken) (h : firstAnswer l .taken) :
    ∀ x ∈ l, ¬x.1 := by
  induction l with
  | nil => nofun
  | cons y l ih =>
    obtain ⟨hanswer, hrest⟩ := h
    have hy : ¬y.1 := fun hy => hrefusals y List.mem_cons_self (hanswer hy).symm
    intro x hx
    rcases List.mem_cons.1 hx with rfl | hx
    · exact hy
    · exact ih (fun z hz => hrefusals z (List.mem_cons_of_mem _ hz)) (hrest hy) x hx

theorem bladeServes_iff (s : State) (l : Lane) (d : Dir) : ¬bladeServes s l d = true ↔
    (s.blades.get l).state = .absent ∨ (s.blades.get l).state = .failed ∨ s.working.sides.get l ≠ some d := by
  simp only [bladeServes, Bool.and_eq_true, decide_eq_true_eq]
  tauto

theorem bladeBusy_iff (s : State) (l : Lane) (throwAt : Time) (withdrawn : Bool) : bladeBusy s l throwAt withdrawn = true ↔
    (s.blades.get l).state ≠ .rest ∨ (∃ t, (s.blades.get l).coolingEnd = some t ∧ Time.before throwAt t = true) ∨
      s.grants.slots.get l ≠ none ∨ withdrawn = true := by
  unfold bladeBusy
  cases hcooling : (s.blades.get l).coolingEnd <;> simp [hcooling, Option.isSome_iff_ne_none, or_assoc]

theorem isHeld_iff (s : State) (l : Lane) : isHeld s l = true ↔ s.occ.holds.get l ≠ none := Option.isSome_iff_ne_none

theorem gateConflict_iff (s : State) (l : Lane) : gateConflict s l = true ↔ (s.gates.get l).state ≠ .idle := by
  unfold gateConflict Gate.isIdle
  cases (s.gates.get l).state <;> simp

/-- R105 to R114: the first check that answers gives the outcome. -/
theorem firstAnswer_checks {s u : State} (hworking : u.working = s.working) (r : PassageRecord) (d : Dir) (target : Lane)
    (withdrawn : Bool) : firstAnswer (checks u r d target (withdrawn = true))
      (if bladeServes u r.lane d then refusals u (candidate s r) target withdrawn else .kept) := by
  rw [← ite_not]
  simp only [checks, hworking]
  refine firstAnswer_ite (by rw [bladeServes_iff, hworking]) ?_
  refine firstAnswer_ite (by rw [Bool.or_eq_true, isHeld_iff, isHeld_iff]; rfl) ?_
  refine firstAnswer_ite (gateConflict_iff u target) ?_
  refine firstAnswer_ite (bladeBusy_iff u _ _ withdrawn) ?_
  refine firstAnswer_ite Iff.rfl ?_
  refine firstAnswer_ite (followingConflict_iff u _ _ _) ?_
  refine firstAnswer_ite (targetConflict_iff u _ _ _) ?_
  refine firstAnswer_ite (blindConflict_iff u _ _) ?_
  refine firstAnswer_ite (downstreamConflict_iff u _ _ _) ?_
  exact rfl

theorem laterChecks_target {u : State} {c : Candidate} {h : HandsetAddr} {q : CarRequest} {target : Lane} (hhandset : c.handset = some h)
    (hrequest : c.request = some q) (htarget : Lane.besideWithin u.working.lanes c.record.lane q.dir = some target) (w : Bool) :
    (laterChecks u c w).outcome = (if bladeServes u c.record.lane q.dir then refusals u c target w else .kept) ∧
    (laterChecks u c w).laneOut = if (laterChecks u c w).outcome = .taken then target else c.record.lane := by
  simp only [laterChecks, hhandset, hrequest, htarget]
  by_cases hserves : bladeServes u c.record.lane q.dir = true
  · simp only [if_pos hserves]
    cases refusals u c target w <;> exact ⟨rfl, rfl⟩
  · simp only [if_neg hserves]
    exact ⟨trivial, rfl⟩

/-- R103 to R114: the outcome of the checks after check 3. -/
theorem laterOutcome_laterChecks {s u : State} (hworking : u.working = s.working) (r : PassageRecord) (withdrawn : Bool) :
    laterOutcome s u r (withdrawn = true) (laterChecks u (candidate s r) withdrawn) := by
  refine ⟨fun hnone => ?_, fun h q hasks => ?_⟩
  · have hrequest : (candidate s r).request = none := by
      show requestOf s r.code = none
      cases hq : requestOf s r.code with
      | none => rfl
      | some q =>
        obtain ⟨h, hasks⟩ := asks_of_request hq
        exact absurd hasks (hnone h q)
    simp only [laterChecks, hrequest]
    cases (candidate s r).handset <;> rfl
  · obtain ⟨hhandset, hrequest⟩ := (asks_iff s r.code h q).1 hasks
    have hhandset : (candidate s r).handset = some h := hhandset
    have hrequest : (candidate s r).request = some q := hrequest
    refine ⟨fun hbeside => ?_, fun target hbeside => ?_⟩
    · have hbeside : Lane.besideWithin u.working.lanes (candidate s r).record.lane q.dir = none := hbeside
      simp only [laterChecks, hhandset, hrequest, hbeside]
      rfl
    · obtain ⟨houtcome, hlane⟩ := laterChecks_target hhandset hrequest hbeside withdrawn
      refine ⟨?_, hlane⟩
      rw [houtcome]
      exact firstAnswer_checks hworking r q.dir target withdrawn

/-! ## Check 3 (R99 to R102) -/

/-- R99 to R101: the blade at work that a car meets. -/
theorem bladeMet_of_meets {s : State} {r : PassageRecord} {side : Dir} {target : Lane} {hold : Window} :
    (bladeMeets s r .thrown side target hold → bladeMet s (candidate s r) = .thrown side target) ∧
    (bladeMeets s r .armed side target hold → bladeMet s (candidate s r) = .armed side target hold) ∧
    (bladeMeets s r .rest side target hold → bladeMet s (candidate s r) = .pending side target hold) := by
  have htarget : s.working.sides.get r.lane = some side → Lane.beside r.lane side = some target →
      bladeTarget s r.lane = some target := by
    intro hside hbeside
    rw [bladeTarget, hside]
    exact hbeside
  have hlane : (candidate s r).record.lane = r.lane := rfl
  refine ⟨?_, ?_, ?_⟩
  · rintro ⟨hside, hbeside, hstate, hwork | ⟨h, _⟩, hwithin⟩
    · obtain ⟨_, hthrow, hrelease⟩ := hwork
      simp only [bladeMet, hlane, hside, htarget hside hbeside, hstate, hthrow, hrelease]
      exact if_pos ((within_iff _ _).2 hwithin)
    · nomatch h
  · rintro ⟨hside, hbeside, hstate, hwork | ⟨h, _⟩, hwithin⟩
    · obtain ⟨_, hthrow, hrelease⟩ := hwork
      simp only [bladeMet, hlane, hside, htarget hside hbeside, hstate, hthrow, hrelease]
      exact if_pos ((within_iff _ _).2 hwithin)
    · nomatch h
  · rintro ⟨hside, hbeside, hstate, ⟨h, _⟩ | ⟨_, g, hslot, hprovisional, hthrow, hrelease⟩, hwithin⟩
    · rcases h with h | h <;> nomatch h
    · simp only [bladeMet, hlane, hside, htarget hside hbeside, hstate, hslot, hthrow, hrelease]
      exact if_pos ⟨hprovisional, (within_iff _ _).2 hwithin⟩

/-- R99 to R101: where check 3 finds a blade at work, the car meets it. -/
theorem bladeMet_clear {s : State} {r : PassageRecord} (h : ∀ x side target hold, ¬bladeMeets s r x side target hold) :
    bladeMet s (candidate s r) = .clear := by
  have hlane : (candidate s r).record.lane = r.lane := rfl
  cases hside : s.working.sides.get r.lane with
  | none => simp only [bladeMet, hlane, hside]
  | some side =>
    cases hbeside : Lane.beside r.lane side with
    | none =>
      have htarget : bladeTarget s r.lane = none := by rw [bladeTarget, hside]; exact hbeside
      simp only [bladeMet, hlane, hside, htarget]
    | some target =>
      have htarget : bladeTarget s r.lane = some target := by rw [bladeTarget, hside]; exact hbeside
      simp only [bladeMet, hlane, hside, htarget]
      split
      · next t u hstate hthrow hrelease =>
        refine if_neg fun hwithin => h .thrown side target ⟨t, u⟩ ?_
        exact ⟨hside, hbeside, hstate, .inl ⟨.inl rfl, hthrow, hrelease⟩, (within_iff _ _).1 hwithin⟩
      · next t u hstate hthrow hrelease =>
        refine if_neg fun hwithin => h .armed side target ⟨t, u⟩ ?_
        exact ⟨hside, hbeside, hstate, .inl ⟨.inr rfl, hthrow, hrelease⟩, (within_iff _ _).1 hwithin⟩
      · next hstate =>
        cases hslot : s.grants.slots.get r.lane with
        | none => rfl
        | some g =>
          refine if_neg fun hpending => h .rest side target ⟨g.throwAt, g.releaseAt⟩ ?_
          obtain ⟨hprovisional, hwithin⟩ := hpending
          exact ⟨hside, hbeside, hstate, .inr ⟨rfl, g, hslot, hprovisional, rfl, rfl⟩, (within_iff _ _).1 hwithin⟩
      · rfl

/-- R97, R98: in RUN a NORMAL record goes on to check 3. -/
theorem ladder_normal {s : State} {r : PassageRecord} (hrun : s.node = .run) (hkind : r.kind = .normal) :
    (∀ d, check3 s (candidate s r) = .decided d → ladder s (candidate s r) = (s, d)) ∧
    (∀ u w, check3 s (candidate s r) = .goOn u w → ladder s (candidate s r) = (u, laterChecks u (candidate s r) w)) := by
  have hsync : s.node ≠ .sync := by rw [hrun]; nofun
  have hstalled : (candidate s r).record.kind ≠ .stalled := by
    show r.kind ≠ .stalled
    rw [hkind]
    nofun
  refine ⟨fun d h => ?_, fun u w h => ?_⟩
  · simp only [ladder, if_neg hsync, if_neg hstalled, h]
  · simp only [ladder, if_neg hsync, if_neg hstalled, h]

theorem check3_clear {s : State} {r : PassageRecord} (h : bladeMet s (candidate s r) = .clear) :
    check3 s (candidate s r) = .goOn s false := by
  simp only [check3, h]

theorem check3_thrown {s : State} {r : PassageRecord} {side : Dir} {target : Lane}
    (h : bladeMet s (candidate s r) = .thrown side target) : check3 s (candidate s r) =
      .decided { outcome := if (candidate s r).requests side then .shared else .swept, laneOut := target } := by
  simp only [check3, h]

theorem check3_armed {s : State} {r : PassageRecord} {side : Dir} {target : Lane} {hold : Window}
    (h : bladeMet s (candidate s r) = .armed side target hold) :
    (sharing s r side target hold → check3 s (candidate s r) = .decided { outcome := .shared, laneOut := target }) ∧
    (¬sharing s r side target hold → check3 s (candidate s r) = .goOn (abort s r.lane) false) := by
  have hlane : (candidate s r).record.lane = r.lane := rfl
  rw [← mayShare_iff]
  refine ⟨fun hshare => ?_, fun hshare => ?_⟩
  · simp only [check3, h, hlane, if_pos hshare]
  · simp only [check3, h, hlane, if_neg hshare]

theorem check3_pending {s : State} {r : PassageRecord} {side : Dir} {target : Lane} {hold : Window}
    (h : bladeMet s (candidate s r) = .pending side target hold) :
    (sharing s r side target hold → check3 s (candidate s r) = .decided { outcome := .shared, laneOut := target }) ∧
    (¬sharing s r side target hold → check3 s (candidate s r) = .goOn (withdraw s r.lane .yielded) true) := by
  have hlane : (candidate s r).record.lane = r.lane := rfl
  rw [← mayShare_iff]
  refine ⟨fun hshare => ?_, fun hshare => ?_⟩
  · simp only [check3, h, hlane, if_pos hshare]
  · simp only [check3, h, hlane, if_neg hshare]

theorem abort_working (s : State) (l : Lane) : (abort s l).working = s.working := by
  obtain ⟨_, _, _, _, _, _, h⟩ := abort_frame s l
  rw [h]

theorem withdraw_working (s : State) (l : Lane) (o : Outcome) : (withdraw s l o).working = s.working := by
  obtain ⟨_, _, _, _, _, _, h⟩ := withdraw_frame s l o
  rw [h]

/-- R94, R97 to R114: the ladder's outcome of a NORMAL record in RUN, by what the car meets. -/
theorem ladder_run {s : State} {r : PassageRecord} (hrun : s.node = .run) (hkind : r.kind = .normal) :
    ((∀ x side target hold, ¬bladeMeets s r x side target hold) →
      (ladder s (candidate s r)).1 = s ∧ laterOutcome s s r False (ladder s (candidate s r)).2) ∧
    ∀ side target hold,
      (bladeMeets s r .thrown side target hold → ladder s (candidate s r) =
        (s, { outcome := if (candidate s r).requests side then .shared else .swept, laneOut := target })) ∧
      (bladeMeets s r .armed side target hold →
        (sharing s r side target hold → ladder s (candidate s r) = (s, { outcome := .shared, laneOut := target })) ∧
        (¬sharing s r side target hold → (ladder s (candidate s r)).1 = abort s r.lane ∧
          laterOutcome s (abort s r.lane) r False (ladder s (candidate s r)).2)) ∧
      (bladeMeets s r .rest side target hold →
        (sharing s r side target hold → ladder s (candidate s r) = (s, { outcome := .shared, laneOut := target })) ∧
        (¬sharing s r side target hold → (ladder s (candidate s r)).1 = withdraw s r.lane .yielded ∧
          laterOutcome s (withdraw s r.lane .yielded) r True (ladder s (candidate s r)).2)) := by
  obtain ⟨hdecided, hgoOn⟩ := ladder_normal hrun hkind
  have hfalse : (false = true) = False := by simp
  have htrue : (true = true) = True := by simp
  refine ⟨fun hclear => ?_, fun side target hold => ?_⟩
  · have hladder := hgoOn _ _ (check3_clear (bladeMet_clear hclear))
    have hlater := laterOutcome_laterChecks (s := s) rfl r false
    rw [hladder, ← hfalse]
    exact ⟨rfl, hlater⟩
  · obtain ⟨hthrown, harmed, hpending⟩ := bladeMet_of_meets (s := s) (r := r) (side := side) (target := target) (hold := hold)
    refine ⟨fun hmeets => hdecided _ (check3_thrown (hthrown hmeets)), fun hmeets => ?_, fun hmeets => ?_⟩
    · obtain ⟨hshared, habort⟩ := check3_armed (harmed hmeets)
      refine ⟨fun hshare => hdecided _ (hshared hshare), fun hshare => ?_⟩
      have hlater := laterOutcome_laterChecks (abort_working s r.lane) r false
      rw [hgoOn _ _ (habort hshare), ← hfalse]
      exact ⟨rfl, hlater⟩
    · obtain ⟨hshared, hwithdraw⟩ := check3_pending (hpending hmeets)
      refine ⟨fun hshare => hdecided _ (hshared hshare), fun hshare => ?_⟩
      have hlater := laterOutcome_laterChecks (withdraw_working s r.lane .yielded) r true
      rw [hgoOn _ _ (hwithdraw hshare), ← htrue]
      exact ⟨rfl, hlater⟩

/-! ## A decision that ends in TAKEN (R114) -/

/-- R103 to R114: where the later checks end in TAKEN, the car asks, its target lane exists, and no check answers. -/
theorem laterOutcome_taken {s u : State} {r : PassageRecord} {withdrawn : Prop} {d : Decided} (h : laterOutcome s u r withdrawn d)
    (htaken : d.outcome = .taken) : ∃ x q target, asks s r.code x q ∧
      Lane.besideWithin u.working.lanes r.lane q.dir = some target ∧ d.laneOut = target ∧
      ∀ y ∈ checks u r q.dir target withdrawn, ¬y.1 := by
  obtain ⟨hstraight, hasked⟩ := h
  by_cases hasks : ∃ x q, asks s r.code x q
  · obtain ⟨x, q, hasks⟩ := hasks
    obtain ⟨hnoLane, htarget⟩ := hasked x q hasks
    cases hbeside : Lane.besideWithin u.working.lanes r.lane q.dir with
    | none =>
      rw [hnoLane hbeside] at htaken
      nomatch htaken
    | some target =>
      obtain ⟨hanswer, hlane⟩ := htarget target hbeside
      rw [htaken] at hanswer hlane
      refine ⟨x, q, target, hasks, hbeside, hlane, not_of_firstAnswer_taken (fun y hy => ?_) hanswer⟩
      simp only [checks, List.mem_cons, List.not_mem_nil, or_false] at hy
      rcases hy with rfl | rfl | rfl | rfl | rfl | rfl | rfl | rfl | rfl <;> nofun
  · rw [hstraight fun x q hx => hasks ⟨x, q, hx⟩] at htaken
    nomatch htaken

theorem abort_blade {s : State} {l : Lane} (harmed : (s.blades.get l).state = .armed) : ((abort s l).blades.get l).state ≠ .rest := by
  unfold abort
  split
  · next g _ =>
    split
    · obtain ⟨hblades, _⟩ := endGrant_blades (standDownBlade s l) l g .aborted
      rw [hblades, standDownBlade_armed harmed]
      show ((s.blades.set l _).get l).state ≠ .rest
      rw [PerLane.get_set_self]
      nofun
    · rw [harmed]
      nofun
  · rw [harmed]
    nofun

/-- R99 to R102: a decision that ends in TAKEN has met no blade at work, and is of a NORMAL record in RUN. -/
theorem ladder_taken_clear {s : State} {r : PassageRecord} (hlive : s.node.live = true)
    (h : (ladder s (candidate s r)).2.outcome = .taken) : s.node = .run ∧ r.kind = .normal ∧ (ladder s (candidate s r)).1 = s ∧
      laterOutcome s s r False (ladder s (candidate s r)).2 := by
  obtain ⟨hsync, _, hrest, _⟩ := ladder_taken h
  have hrun : s.node = .run := ((live_iff _).1 hlive).resolve_left hsync
  have hkind : r.kind = .normal := by
    cases hk : r.kind with
    | normal => rfl
    | stalled =>
      rw [ladder_stalled (c := candidate s r) hk] at h
      simp [hsync] at h
  obtain ⟨hclear, hmeet⟩ := ladder_run hrun hkind
  have hnone : ∀ x side target hold, ¬bladeMeets s r x side target hold := by
    intro x side target hold hmeets
    obtain ⟨hthrown, harmed, hpending⟩ := hmeet side target hold
    obtain ⟨_, _, hstate, hwork, _⟩ := id hmeets
    rcases hwork with ⟨rfl | rfl, _⟩ | ⟨rfl, _⟩
    · rw [hthrown hmeets] at h
      have hne : (if (candidate s r).requests side then Outcome.shared else .swept) ≠ .taken := by split <;> nofun
      exact hne h
    · obtain ⟨hshared, habort⟩ := harmed hmeets
      by_cases hshare : sharing s r side target hold
      · rw [hshared hshare] at h
        nomatch h
      · rw [(habort hshare).1] at hrest
        exact abort_blade hstate hrest
    · obtain ⟨hshared, hwithdraw⟩ := hpending hmeets
      by_cases hshare : sharing s r side target hold
      · rw [hshared hshare] at h
        nomatch h
      · obtain ⟨_, _, _, _, _, _, hunmet⟩ := laterOutcome_taken (hwithdraw hshare).2 h
        simp [checks] at hunmet
  exact ⟨hrun, hkind, hclear hnone⟩

end Sys2Proof.Machine
end


/-! # The effects of a decision (R43, R73, R80, R115 to R118) -/

section
namespace Sys2Proof.Machine

open Sys2Proof.Safety

/-! ## Each effect reads what it is about -/

theorem holdRequest_apart (u : State) (hs : List HandsetEntry) (b : BindingBlock) (l : Lane) (t : Time) :
    holdRequest { u with handsets := hs, bind := b } l t = { u with handsets := hs, bind := b, occ := (holdRequest u l t).occ } := by
  by_cases h : l.num ≤ u.working.lanes
  · have hheld : holdRequest u l t = u.setHold l (raisedHold u.now (u.occ.holds.get l) t) := if_pos h
    rw [hheld]
    exact if_pos h
  · have hheld : holdRequest u l t = u := if_neg h
    rw [hheld]
    exact if_neg h

theorem makeOccupancyRoom_apart (u : State) (hs : List HandsetEntry) (b : BindingBlock) :
    makeOccupancyRoom { u with handsets := hs, bind := b } =
      { u with handsets := hs, bind := b, occ := (makeOccupancyRoom u).occ } := by
  unfold makeOccupancyRoom
  simp only
  split
  · rfl
  · split
    · split
      · exact holdRequest_apart (u.setOccupancy (u.occ.list.eraseIdx (occupancyVictim u.occ.list))) hs b _ _
      · rfl
    · rfl

theorem enterOccupancy_apart (u : State) (hs : List HandsetEntry) (b : BindingBlock) (e : OccupancyEntry) :
    enterOccupancy { u with handsets := hs, bind := b } e =
      { u with handsets := hs, bind := b, occ := (enterOccupancy u e).occ } := by
  simp only [enterOccupancy, makeOccupancyRoom_apart]
  rfl

/-- R115: the state before the notice: the request, the order and the TARGET entry, each as in the state of the decision. -/
theorem settled_eq (u : State) (c : Candidate) (d : Decided) :
    settleTarget (settleOrder (settleRequest u c d.outcome) c d.outcome) c d = { u with
      handsets := (settleRequest u c d.outcome).handsets
      bind := (settleOrder u c d.outcome).bind
      occ := (settleTarget u c d).occ } := by
  obtain ⟨hs, hrequest⟩ := settleRequest_frame u c d.outcome
  have horder : settleOrder { u with handsets := hs } c d.outcome =
      { u with handsets := hs, bind := (settleOrder u c d.outcome).bind } := by
    unfold settleOrder
    split
    · split <;> rfl
    · rfl
  have htarget : ∀ b, settleTarget { u with handsets := hs, bind := b } c d =
      { u with handsets := hs, bind := b, occ := (settleTarget u c d).occ } := by
    intro b
    unfold settleTarget
    cases d.outcome
    case shared | swept | taken => exact enterOccupancy_apart u hs b _
    all_goals rfl
  rw [hrequest, horder, htarget]

/-- R115: a decision with its request consumed, its order counted down and its car entered; its notice is not handed in yet. -/
def settled (u : State) (c : Candidate) (d : Decided) : State :=
  { u with
    handsets := (settleRequest u c d.outcome).handsets
    bind := (settleOrder u c d.outcome).bind
    occ := (settleTarget u c d).occ }

theorem settle_taken {u : State} {c : Candidate} {d : Decided} (h : d.outcome = .taken) : settle u c d =
    queuePass ((settled u c d).setSlot c.record.lane (newGrant (settled u c d) c d.laneOut)) (decisionNotice (settled u c d) c d)
      c.hold.start (.grantUnit c.record.lane) := by
  rw [settle, settled_eq, settleNotice, if_pos h]
  rfl

theorem settle_reported {u : State} {c : Candidate} {d : Decided} (h : d.outcome ≠ .taken) : settle u c d =
    queuePass (settled u c d) (decisionNotice (settled u c d) c d) (Time.plus c.record.tRef 3125) .planner := by
  rw [settle, settled_eq, settleNotice, if_neg h]
  rfl

/-- R115: what a settled decision leaves beside its notice. -/
theorem settle_fields (u : State) (c : Candidate) (d : Decided) :
    (settle u c d).handsets = (settleRequest u c d.outcome).handsets ∧ (settle u c d).bind = (settleOrder u c d.outcome).bind ∧
    (settle u c d).occ = (settleTarget u c d).occ ∧ (settle u c d).line.nextId = u.line.nextId + 1 := by
  by_cases h : d.outcome = .taken
  · rw [settle_taken h]
    exact ⟨rfl, rfl, rfl, rfl⟩
  · rw [settle_reported h]
    exact ⟨rfl, rfl, rfl, rfl⟩

/-! ## The press and the order (R43, R73, R115) -/

theorem Outcome.consumes_iff (o : Outcome) : o.consumes = true ↔ o ∈ ([.noLane, .laneHeld, .blockedTarget, .bladeBusy, .tooClose,
    .following, .blind, .blockedDownstream, .taken, .shared, .swept] : List Outcome) := by
  cases o <;> decide

theorem Outcome.counts_iff (o : Outcome) : o.counts = true ↔ o = .taken ∨ o = .shared := by
  cases o <;> decide

/-- R115 step 2: the press count that a decision consumes. -/
theorem consumed_iff (s : State) (r : PassageRecord) (o : Outcome) (n : BitVec 4) : consumed (candidate s r) o = some n ↔
    o.consumes = true ∧ ∃ h side, asks s r.code h ⟨side, .press n⟩ := by
  have hconsumed : consumed (candidate s r) o = some n ↔
      o.consumes = true ∧ ∃ side, requestOf s r.code = some ⟨side, .press n⟩ := by
    show (match requestOf s r.code with
      | some { used := .press n, .. } => if o.consumes then some n else none
      | _ => none) = some n ↔ _
    cases requestOf s r.code with
    | none => simp
    | some q =>
      obtain ⟨side, used⟩ := q
      cases used with
      | press m => cases o.consumes <;> simp
      | order e => simp
  rw [hconsumed]
  refine and_congr_right fun _ => ⟨fun ⟨side, hq⟩ => ?_, fun ⟨h, side, hasks⟩ => ⟨side, ((asks_iff _ _ _ _).1 hasks).2⟩⟩
  obtain ⟨h, hasks⟩ := asks_of_request hq
  exact ⟨h, side, hasks⟩

/-- R115 step 3: a decision counts down the order that it was taken under. -/
theorem countsDown_iff (s : State) (r : PassageRecord) (o : Outcome) : countsDown (candidate s r) o = true ↔
    (o = .taken ∨ o = .shared) ∧ ∃ h side, asks s r.code h ⟨side, .order side⟩ := by
  have hcounts : countsDown (candidate s r) o = true ↔
      o.counts = true ∧ ∃ side e, requestOf s r.code = some ⟨side, .order e⟩ := by
    show (match requestOf s r.code with
      | some { used := .order _, .. } => o.counts
      | _ => false) = true ↔ _
    cases requestOf s r.code with
    | none => simp
    | some q =>
      obtain ⟨side, used⟩ := q
      cases used with
      | press m => simp
      | order e => simp
  rw [hcounts, Outcome.counts_iff]
  refine and_congr_right fun _ => ⟨fun ⟨side, e, hq⟩ => ?_, fun ⟨h, side, hasks⟩ => ⟨side, side, ((asks_iff _ _ _ _).1 hasks).2⟩⟩
  obtain ⟨h, hasks⟩ := asks_of_request hq
  obtain ⟨_, _, _, ⟨_, _, _, _, hpress⟩ | ⟨_, _, _, horder⟩⟩ := id hasks
  · nomatch hpress
  · have hsame : UsedRequest.order e = .order side := horder
    rw [hsame] at hasks
    exact ⟨h, side, hasks⟩

/-- R43: the latched request of that count goes. -/
theorem consumePress_handsets (s : State) (h : HandsetAddr) (n : BitVec 4) : (consumePress s h n).handsets =
    s.handsets.map (fun e => if e.address = h ∧ e.request.map (·.count) = some n then { e with request := none } else e) := by
  refine List.map_congr_left fun e _ => ?_
  by_cases haddress : e.address = h
  · cases hrequest : e.request with
    | none => simp [hrequest]
    | some q => by_cases hcount : q.count = n <;> simp [hrequest, haddress, hcount]
  · simp [haddress]

theorem settleRequest_handsets {s u : State} {r : PassageRecord} {o : Outcome} :
    (∀ h side n, asks s r.code h ⟨side, .press n⟩ → o.consumes = true → (settleRequest u (candidate s r) o).handsets =
      u.handsets.map (fun e => if e.address = h ∧ e.request.map (·.count) = some n then { e with request := none } else e)) ∧
    ((∀ h side n, ¬asks s r.code h ⟨side, .press n⟩) ∨ ¬o.consumes = true →
      (settleRequest u (candidate s r) o).handsets = u.handsets) := by
  refine ⟨fun h side n hasks hconsumes => ?_, fun hquiet => ?_⟩
  · have hconsumed : consumed (candidate s r) o = some n := (consumed_iff s r o n).2 ⟨hconsumes, h, side, hasks⟩
    have hhandset : (candidate s r).handset = some h := ((asks_iff _ _ _ _).1 hasks).1
    simp only [settleRequest, hconsumed, hhandset]
    exact consumePress_handsets u h n
  · have hconsumed : consumed (candidate s r) o = none := by
      cases hn : consumed (candidate s r) o with
      | none => rfl
      | some n =>
        obtain ⟨hconsumes, h, side, hasks⟩ := (consumed_iff s r o n).1 hn
        rcases hquiet with hnone | hnot
        · exact absurd hasks (hnone h side n)
        · exact absurd hconsumes hnot
    simp only [settleRequest, hconsumed]

theorem settleOrder_counts {u : State} {c : Candidate} {o : Outcome} {car : Car} (hcar : Car.ofCode c.record.code = some car)
    (hcounts : countsDown c o = true) : (settleOrder u c o).bind.entries =
      u.bind.entries.set car { u.bind.entries.get car with standing := (u.bind.entries.get car).standing.countDown } := by
  simp only [settleOrder, hcar, if_pos hcounts]
  rfl

theorem settleOrder_quiet {u : State} {c : Candidate} {o : Outcome} (hcounts : ¬countsDown c o = true) : settleOrder u c o = u := by
  unfold settleOrder
  split
  · exact if_neg hcounts
  · rfl

/-! ## The notice (R116, R118) -/

theorem orderField_iff (s : State) (code : CarCode) (ranOut : Bool) (x : OrderField) : orderField s code ranOut = some x ↔
    ∃ car, Car.ofCode code = some car ∧ ((s.bind.entries.get car).standing = .order x.dir x.remaining ∨
      ((s.bind.entries.get car).standing = .runOut x.dir ∧ x.remaining = 0 ∧ ranOut = true)) := by
  obtain ⟨dir, remaining⟩ := x
  unfold orderField
  cases Car.ofCode code with
  | none => simp
  | some car =>
    cases hstanding : (s.bind.entries.get car).standing with
    | order e m => simp [Standing.field, hstanding]
    | runOut e => cases ranOut <;> simp [Standing.field, hstanding, eq_comm]
    | empty => simp [Standing.field, hstanding]

/-- R114, R117: the grant of a decision. -/
theorem newGrant_eq {s u : State} {r : PassageRecord} {h : HandsetAddr} {q : CarRequest} (hasks : asks s r.code h q) (target : Lane) :
    newGrant u (candidate s r) target = some
      { state := .provisional, code := r.code, handset := h, used := q.used, target := target, tRef := r.tRef,
        pace := r.pace, throwAt := (holdWindow s.working r.tRef r.pace.ticks).start,
        releaseAt := (holdWindow s.working r.tRef r.pace.ticks).stop,
        window := zoneWindow s.working r.tRef r.pace.ticks, frame := some u.line.nextId } := by
  obtain ⟨hhandset, hrequest⟩ := (asks_iff s r.code h q).1 hasks
  have hhandset : (candidate s r).handset = some h := hhandset
  have hrequest : (candidate s r).request = some q := hrequest
  simp only [newGrant, hhandset, hrequest]
  rfl

/-- R114: a decision that ends in TAKEN has passed every check and fills the free slot. -/
theorem decideRecord_taken {s : State} {r : PassageRecord} (hlive : s.node.live = true)
    (htaken : (ladder s (candidate s r)).2.outcome = .taken) :
    ∃ (h : HandsetAddr) (q : CarRequest) (target : Lane),
      s.node = .run ∧ r.kind = .normal ∧ (ladder s (candidate s r)).1 = s ∧ asks s r.code h q ∧
      Lane.besideWithin s.working.lanes r.lane q.dir = some target ∧ (∀ y ∈ checks s r q.dir target False, ¬y.1) ∧
      (decideRecord s r).blades = s.blades ∧
      (decideRecord s r).grants =
        { s.grants with slots := s.grants.slots.set r.lane (newGrant s (candidate s r) target) } := by
  obtain ⟨hrun, hkind, hstate, hlater⟩ := ladder_taken_clear hlive htaken
  obtain ⟨h, q, target, hasks, hbeside, hlane, hunmet⟩ := laterOutcome_taken hlater htaken
  have hdecided : decideRecord s r = settle s (candidate s r) (ladder s (candidate s r)).2 := by
    unfold decideRecord
    simp only
    rw [hstate]
  refine ⟨h, q, target, hrun, hkind, hstate, hasks, hbeside, hunmet, ?_, ?_⟩
  · rw [hdecided, settle_taken htaken]
    rfl
  · rw [hdecided, settle_taken htaken, hlane]
    rfl

end Sys2Proof.Machine
end


/-! # Decisions (R94 to R118) -/

section
namespace Sys2Proof.Machine

open Sys2Proof.Safety

/-- R115, R116, R118: the notice of a decision is handed in last. -/
theorem settle_notice {u : State} (hlive : u.node.live = true) (c : Candidate) (d : Decided) {deadline : Time}
    (hdeadline : deadline = if d.outcome = .taken then c.hold.start else Time.plus c.record.tRef 3125)
    (hahead : arrived u.now deadline = false) :
    (settle u c d).line = { u.line with nextId := u.line.nextId + 1, queue := (settle u c d).line.queue } ∧
    queuedIn
      { id := u.line.nextId, level := 0, originator := u.working.address, deadline := deadline, queued := u.now,
        owner := if d.outcome = .taken then .grantUnit c.record.lane else .planner,
        body := .pass (decisionNotice (settled u c d) c d) } u.line.queue (settle u c d).line.queue := by
  by_cases h : d.outcome = .taken
  · rw [if_pos h] at hdeadline ⊢
    rw [settle_taken h, ← hdeadline]
    exact ⟨rfl, queuePass_queuedIn (s := (settled u c d).setSlot c.record.lane (newGrant (settled u c d) c d.laneOut)) hlive _ _ hahead⟩
  · rw [if_neg h] at hdeadline ⊢
    rw [settle_reported h, ← hdeadline]
    exact ⟨rfl, queuePass_queuedIn (s := settled u c d) hlive _ _ hahead⟩

theorem settleTarget_spec (u : State) (c : Candidate) (d : Decided) :
    (d.outcome = .shared ∨ d.outcome = .swept →
      settleTarget u c d = enterOccupancy u (targetEntry u.working c.record d.laneOut none)) ∧
    (d.outcome = .taken → settleTarget u c d = enterOccupancy u (targetEntry u.working c.record d.laneOut (some c.record.lane))) ∧
    (d.outcome ≠ .shared → d.outcome ≠ .swept → d.outcome ≠ .taken → settleTarget u c d = u) := by
  unfold settleTarget
  cases d.outcome <;> simp

theorem Standing.countDown_eq (x : Standing) : x.countDown = match x with
    | .order e m => if m ≤ 1 then .runOut e else .order e (m - 1)
    | x => x := by
  cases x <;> rfl

/-- What the ladder leaves of the node: its present, its state and its values. -/
theorem ladder_fixed (s : State) (c : Candidate) :
    (ladder s c).1.now = s.now ∧ (ladder s c).1.node = s.node ∧ (ladder s c).1.working = s.working := by
  obtain ⟨_, _, _, _, _, _, _, h⟩ := ladder_frame s c
  rw [h]
  exact ⟨rfl, rfl, rfl⟩

/-- Settles O42: the grant of TAKEN, the ladder, and the effects in their order. -/
theorem takenGrantIsSound : Obligations.TakenGrantIsSound := by
  refine ⟨fun s r hlive htaken => ?_, fun s r hlive => ?_, fun s r hlive => ?_, fun l s p hopen hgap hlong hlive => ?_⟩
  · obtain ⟨h, q, target, hrun, hkind, hstate, hasks, hbeside, hunmet, hblades, hgrants⟩ := decideRecord_taken hlive htaken
    obtain ⟨hbound, hrequest⟩ := (asks_iff s r.code h q).1 hasks
    rw [newGrant_eq hasks] at hgrants
    simp only [checks, List.forall_mem_cons, List.not_mem_nil, false_imp_iff, implies_true, and_true, not_or, not_not, ne_eq,
      or_false] at hunmet
    obtain ⟨⟨_, _, hside⟩, ⟨hheld, hheldTarget⟩, hidle, ⟨hrest, hcooled, hslot⟩, hclose, hfollowing, htarget, hblind, hdown⟩ := hunmet
    refine ⟨h, q, target, hbound, hrequest, hasks, hrun, hkind, hbeside, hside, ?_, ?_, hidle, hrest, hslot, fun t ht => ?_, ?_, hfollowing,
      htarget, hblind, hdown, hstate, hblades, hgrants⟩
    · rw [isHeld, hheld]
      rfl
    · rw [isHeld, hheldTarget]
      rfl
    · exact Bool.eq_false_iff.2 fun hbefore => hcooled ⟨t, ht, hbefore⟩
    · exact Bool.eq_false_iff.2 hclose
  · intro u d
    refine ⟨fun hsync => ?_, fun hrun hkind => ?_, fun hrun hkind => ?_⟩
    · have hladder : ladder s (candidate s r) = (s, { outcome := .notReady, laneOut := r.lane }) := if_pos hsync
      exact ⟨congrArg Prod.fst hladder, congrArg Prod.snd hladder⟩
    · have hsync : s.node ≠ .sync := by rw [hrun]; nofun
      have hladder := ladder_stalled (s := s) (c := candidate s r) hkind
      rw [if_neg hsync] at hladder
      exact ⟨congrArg Prod.fst hladder, congrArg Prod.snd hladder⟩
    · obtain ⟨hclear, hmeet⟩ := ladder_run hrun hkind
      refine ⟨fun hnone => ?_, fun side target hold => ?_⟩
      · obtain ⟨hu, hlater⟩ := hclear hnone
        refine ⟨hu, ?_⟩
        show laterOutcome s (ladder s (candidate s r)).1 r False _
        rw [hu]
        exact hlater
      · obtain ⟨hthrown, harmed, hpending⟩ := hmeet side target hold
        refine ⟨fun hmeets => ?_, fun hmeets => ?_, fun hmeets => ?_⟩
        · have hu := congrArg Prod.fst (hthrown hmeets)
          have hd := congrArg Prod.snd (hthrown hmeets)
          refine ⟨hu, congrArg Decided.laneOut hd, fun hasks => ?_, fun hasks => ?_⟩
          · exact (congrArg Decided.outcome hd).trans (if_pos ((requests_iff s r side).2 hasks))
          · refine (congrArg Decided.outcome hd).trans (if_neg fun hrequests => ?_)
            obtain ⟨h, q, hask, hdir⟩ := (requests_iff s r side).1 hrequests
            exact hasks h q hask hdir
        · obtain ⟨hshared, habort⟩ := harmed hmeets
          refine ⟨fun hshare => ⟨congrArg Prod.fst (hshared hshare), congrArg Prod.snd (hshared hshare)⟩, fun hshare => ?_⟩
          obtain ⟨hu, hlater⟩ := habort hshare
          refine ⟨hu, ?_⟩
          show laterOutcome s (ladder s (candidate s r)).1 r False _
          rw [hu]
          exact hlater
        · obtain ⟨hshared, hwithdraw⟩ := hpending hmeets
          refine ⟨fun hshare => ⟨congrArg Prod.fst (hshared hshare), congrArg Prod.snd (hshared hshare)⟩, fun hshare => ?_⟩
          obtain ⟨hu, hlater⟩ := hwithdraw hshare
          refine ⟨hu, ?_⟩
          show laterOutcome s (ladder s (candidate s r)).1 r True _
          rw [hu]
          exact hlater
  · intro u d t consumes counts zone target
    have ht : t = settle u (candidate s r) d := rfl
    obtain ⟨hnow, hnode, hworking⟩ := ladder_fixed s (candidate s r)
    have hnow : u.now = s.now := hnow
    have hnode : u.node = s.node := hnode
    have hworking : u.working = s.working := hworking
    have hconsumes : d.outcome.consumes = true ↔ consumes := Outcome.consumes_iff d.outcome
    have hcounts : countsDown (candidate s r) d.outcome = true ↔ counts := countsDown_iff s r d.outcome
    obtain ⟨hhandsets, hbind, hocc, _⟩ := settle_fields u (candidate s r) d
    rw [← ht] at hhandsets hbind hocc
    obtain ⟨hpress, hquiet⟩ := settleRequest_handsets (s := s) (u := u) (r := r) (o := d.outcome)
    have htarget : ∀ link, targetEntry u.working (candidate s r).record d.laneOut link = target link := by
      intro link
      rw [hworking]
      rfl
    obtain ⟨hshared, htaken, hother⟩ := settleTarget_spec u (candidate s r) d
    refine ⟨fun h side n hasks hc => ?_, fun hnone => ?_, fun car hcar hc => ?_, fun hc => ?_, fun ho => ?_, fun ho => ?_,
      fun h1 h2 h3 => ?_, fun ho => ?_, ?_, ?_⟩
    · rw [hhandsets]
      exact hpress h side n hasks (hconsumes.2 hc)
    · rw [hhandsets]
      exact hquiet (hnone.imp_right fun hn hc => hn (hconsumes.1 hc))
    · rw [hbind, settleOrder_counts (c := candidate s r) hcar (hcounts.2 hc)]
      exact congrArg (fun x => u.bind.entries.set car { u.bind.entries.get car with standing := x }) (Standing.countDown_eq _)
    · rw [hbind, settleOrder_quiet fun hd => hc (hcounts.1 hd)]
    · rw [hocc, hshared ho, htarget]
    · rw [hocc, htaken ho]
      exact congrArg (fun e => (enterOccupancy u e).occ) (htarget _)
    · rw [hocc, hother h1 h2 h3]
    · rw [ht, settle_reported ho]
      rfl
    · intro deadline hahead
      obtain ⟨hline, hqueued⟩ := settle_notice (by rw [hnode]; exact hlive) (candidate s r) d (deadline := deadline) rfl
        (by rw [hnow]; exact hahead)
      refine ⟨consumed (candidate s r) d.outcome,
        orderField (settled u (candidate s r) d) r.code (countsDown (candidate s r) d.outcome), fun n => ?_, fun o => ?_, hline, ?_⟩
      · rw [consumed_iff, hconsumes]
      · rw [orderField_iff, hcounts, hbind]
        rfl
      · rw [hnow, hworking] at hqueued
        have hvalues : (settled u (candidate s r) d).working = s.working := hworking
        simp only [decisionNotice, hvalues] at hqueued
        exact hqueued
    · obtain ⟨_, _, _, _, _, _, _, hframe⟩ := settle_frame u (candidate s r) d
      rw [ht]
      rw [hframe]
  · intro r
    have hshort : ¬(Time.diff p.first p.last).toNat < 8 := by omega
    have hclose := exec_passageClose_due hopen hgap
    rw [if_neg hshort] at hclose
    rw [hclose]
    exact congrArg _ (if_pos hlive)

end Sys2Proof.Machine
end
